-- ==== Sys2Proof/Word.lean ====
section
/-! DEFINITION. Word.lean: the byte and the line level (00_scope.md R19, 10_state.md R23).

A timestamp or clock value is an unsigned `W`-bit number of microseconds (R12, R23). `W` is a parameter of
the machine, so such a value is a `Nat`, and every subtraction reduces modulo `2^W`
(`Machine.subW`); that a stored one is below `2^W` is part of the machine's invariant. DESIGN CHOICE, log
entry 1. -/

namespace Sys2Proof

/-- A data byte of the frame and of the reading (R30). -/
abbrev Byte := BitVec 8

/-- The level of the data line; Low = 0 and High = 1 (R23, decision D17). -/
inductive Level where
  | low
  | high
deriving DecidableEq, Repr

end Sys2Proof
end

