-- ==== Sys2Proof/Config.lean ====
section
/-! DEFINITION. Config.lean: the fixed sizes, the implementation parameters with their defaults, and
the free values (00_scope.md section 3; 93_implementation_defined.md U5, U15 to U17, U19). -/

namespace Sys2Proof

namespace Config

/-- The timeline holds 84 edges (R10): 2 acknowledge edges, 40 data bits of 2 edges, 2 end edges. -/
abbrev capacity : Nat := 84

/-- Slot of the first edge of the humidity-integral byte (R11). -/
abbrev offHumInt : Nat := 2

/-- Slot of the first edge of the humidity-decimal byte (R11; "(unused)": no level is read there). -/
abbrev offHumDec : Nat := 18

/-- Slot of the first edge of the temperature-integral byte (R11). -/
abbrev offTmpInt : Nat := 34

/-- Slot of the first edge of the temperature-decimal byte (R11; "(unused)"). -/
abbrev offTmpDec : Nat := 50

/-- Slot of the first edge of the checksum byte (R11). -/
abbrev offCrc : Nat := 66

/-- The free byte `any8` (R19, U5), the `n`-th one drawn by device instance `inst`. It has no
body: nothing can be proved of its value. Log entry 5. -/
opaque anyByte : (inst : Nat) → (n : Nat) → Byte

/-- The free value `arm_ts` holds at device instance `inst` until START_RELEASE writes it (R28, U4). It has
no body: nothing can be proved of it but its width. Log entry 6. -/
opaque initialArmTs : (inst : Nat) → (width : Nat) → BitVec width

end Config

/-- The implementation parameters of one machine (R12 to R16). They stand in the state so that a
statement about every state is a statement about every choice of them; no step changes them (R16).
`N_INST` (R17) is the number of device instances the state holds. Log entry 2. -/
structure Params where
  /-- `W` = TS_WIDTH, at least 8 (R12). -/
  tsWidth : Nat
  /-- T_START_MIN_MS (R13). -/
  tStartMinMs : Nat
  /-- T_START_MAX_MS (R13). -/
  tStartMaxMs : Nat
  /-- ACK_TIMEOUT_US (R14, 90_conflicts.md C2). -/
  ackTimeoutUs : Nat
  /-- EDGE_TIMEOUT_US (R15). -/
  edgeTimeoutUs : Nat
  /-- BIT1_MAX_US (R16). -/
  bit1MaxUs : Nat
  /-- BIT0_MAX_US (R16). -/
  bit0MaxUs : Nat
deriving DecidableEq, Repr

/-- The spec's default of every parameter (the parameter summary of 00_scope.md section 3). -/
def Params.defaults : Params where
  tsWidth := 32
  tStartMinMs := 18
  tStartMaxMs := 20
  ackTimeoutUs := 60
  edgeTimeoutUs := 100
  bit1MaxUs := 80
  bit0MaxUs := 35

end Sys2Proof
end

