-- ==== Sys2Proof/Syntax.lean ====
section
/-! DEFINITION. Syntax.lean: the operations of spec/opcode_table.json, the words on the two input
ports, and the response statuses (30_encoding.md). -/

namespace Sys2Proof

/-- One constructor per row of spec/opcode_table.json: the five commands of the command port (R58)
and the one operation of the edge port (R60). -/
inductive Instr where
  /-- START_READ, op 0b001 (R80). -/
  | startRead
  /-- CHECK_STATUS, op 0b010 (R85). -/
  | checkStatus
  /-- ABORT_READ, op 0b011 (R86). -/
  | abortRead
  /-- GET_DATA, op 0b100 (R91). -/
  | getData
  /-- READ, op 0b101 (R87). -/
  | read
  /-- EDGE with the event word's two fields (R60, R70). -/
  | edge (lvl : Level) (ts : Nat)
deriving DecidableEq, Repr

/-- A word as it stands on one of the two input ports (30_encoding.md section 1): a 3-bit command
word or a `(W + 1)`-bit edge event word. The bits are held as a number; the decoder rejects one
that is wider than its port. -/
inductive PortWord where
  | cmd (w : Nat)
  | edge (w : Nat)
deriving DecidableEq, Repr

/-- The response statuses (R62), in the spec's order of codes 0 to 6. -/
inductive Status where
  | ok
  | noData
  | busy
  | dataReady
  | errTimeout
  | errSequenceInvalid
  | errCrc
deriving DecidableEq, Repr

end Sys2Proof
end

