-- ==== Sys2Proof/WellFormed.lean ====
section
/-! DEFINITION. WellFormed.lean: which operations, port words and parameters the spec admits. -/

namespace Sys2Proof

/-- An EDGE's timestamp is a `W`-bit value (R60, R70); a command has no operand to check (R57). -/
def Instr.wf (width : Nat) : Instr → Bool
  | .startRead => true
  | .checkStatus => true
  | .abortRead => true
  | .getData => true
  | .read => true
  | .edge _ ts => decide (ts < 2 ^ width)

/-- A word fits its port: 3 bits on the command port, `W + 1` on the edge port (R57, R60). -/
def PortWord.fits (width : Nat) : PortWord → Bool
  | .cmd w => decide (w < 2 ^ 3)
  | .edge w => decide (w < 2 ^ (width + 1))

/-- The parameters the spec admits: `W ≥ 8` (R12), and both bit bounds below `2^W` (R16). No order
between the bit bounds is asked (R16, U19). -/
def Params.wf (p : Params) : Bool :=
  decide (8 ≤ p.tsWidth) && decide (p.bit1MaxUs < 2 ^ p.tsWidth) &&
    decide (p.bit0MaxUs < 2 ^ p.tsWidth)

end Sys2Proof
end

