-- ==== Sys2Proof/Decode.lean ====
section
/-! DEFINITION. Decode.lean: the decoder of the two input ports, total and rejecting by name, and the
encoder written from the same tables (30_encoding.md R57 to R60, R67). -/

namespace Sys2Proof

/-- Why a port word is no operation. -/
inductive DecodeError where
  /-- Opcodes 0b000, 0b110 and 0b111 spell no command (R59). -/
  | reservedOpcode (op : Nat)
  /-- The number has a bit above the port's width, so it is no word of that port (R57, R60). -/
  | tooWide (w : Nat)
deriving DecidableEq, Repr

/-- The bit of a level: Low = 0, High = 1 (R23). -/
def Level.toBit : Level → Bool
  | .low => false
  | .high => true

/-- The level of a bit (R23). -/
def Level.ofBit : Bool → Level
  | false => .low
  | true => .high

/-- The opcode assignments (R58); every other 3-bit value is reserved (R59). -/
def decodeOp : Nat → Option Instr
  | 1 => some .startRead
  | 2 => some .checkStatus
  | 3 => some .abortRead
  | 4 => some .getData
  | 5 => some .read
  | _ => none

/-- The fields of an edge word (R60): `lvl = word[W]`, `ts = word[W-1:0]`. -/
def decodeEdge (width w : Nat) : Instr :=
  .edge (Level.ofBit (w.testBit width)) (w % 2 ^ width)

/-- The decoder (R67). -/
def decode (width : Nat) : PortWord → Except DecodeError Instr
  | .cmd w =>
    if w < 2 ^ 3 then
      match decodeOp w with
      | some i => .ok i
      | none => .error (.reservedOpcode w)
    else .error (.tooWide w)
  | .edge w =>
    if w < 2 ^ (width + 1) then .ok (decodeEdge width w) else .error (.tooWide w)

/-- The port word of an operation: the opcode of R58, or the edge word `{lvl, ts}` of R60. -/
def encode (width : Nat) : Instr → PortWord
  | .startRead => .cmd 0b001
  | .checkStatus => .cmd 0b010
  | .abortRead => .cmd 0b011
  | .getData => .cmd 0b100
  | .read => .cmd 0b101
  | .edge lvl ts => .edge ((if lvl.toBit then 2 ^ width else 0) + ts)

/-- Which port a row of spec/opcode_table.json stands on: a command row has 3 bits (one byte); the
EDGE row has `W + 1` bits, which is at least 9 since `W ≥ 8` (R12, R57, R60). -/
def tableWord (nbits w : Nat) : PortWord :=
  if nbits ≤ 8 then .cmd w else .edge w

/-- What the decoder reads from a row's bits, at the spec's default width `W = 32`. -/
def decodeTableWord (nbits w : Nat) : Option Instr :=
  match decode Params.defaults.tsWidth (tableWord nbits w) with
  | .ok i => some i
  | .error _ => none

end Sys2Proof
end

