-- ==== Sys2Proof/Machine/State.lean ====
section
/-! DEFINITION. Machine/State.lean: the state of the machine as plain data, its faults and refusals, and
the state after reset (10_state.md, 70_reset_and_hazards.md R123). -/

namespace Sys2Proof.Machine

/-- One edge, the pair of R23. -/
structure Edge where
  ts : Nat
  lvl : Level
deriving DecidableEq, Repr

/-- The memory of the block is its Edge Timeline (R24, R39): whole entries at the addresses 0 to 83. A
list of (index, edge) pairs, indices strictly rising (`Memory.wf`); an index that is not listed is
an UNWRITTEN slot, which holds no value (R24, R40). -/
abbrev Memory := List (Nat × Edge)

/-- The cursor's type, `SENTINEL | 0 | ... | 84` (R25). SENTINEL is an abstract value, no number
(decision D4). -/
inductive Count where
  | sentinel
  | val (n : Fin 85)
deriving DecidableEq, Repr

/-- The sequencer state (R33). -/
inductive Phase where
  | idle
  | startLow
  | awaitAck
  | waitComplete
deriving DecidableEq, Repr

/-- The composite command in progress (R33). -/
inductive Cur where
  | none
  | startRead
  | read
deriving DecidableEq, Repr

/-- Line direction: IN = 0, OUT = 1 (R34). -/
inductive LineDir where
  | input
  | output
deriving DecidableEq, Repr

/-- The five reading registers (R30). -/
structure Reading where
  humInt : Byte
  humDec : Byte
  tmpInt : Byte
  tmpDec : Byte
  crc : Byte
deriving DecidableEq, Repr

/-- Five free bytes `any8` (R19, U5) of device instance `k`, from the `n`-th one on. Log entry 5. -/
def Reading.free (k n : Nat) : Reading where
  humInt := Config.anyByte k n
  humDec := Config.anyByte k (n + 1)
  tmpInt := Config.anyByte k (n + 2)
  tmpDec := Config.anyByte k (n + 3)
  crc := Config.anyByte k (n + 4)

/-- The state of one device instance: exactly the record of R20, in its order. Before anything has written
`armTs` and `reading`, which the spec calls UNWRITTEN (R28, R30, R123), they hold free values (DESIGN CHOICE, log
entry 6). -/
structure Block where
  /-- The Edge Timeline (R24). -/
  tl : Memory
  /-- The cursor (R25). -/
  count : Count
  /-- Edge capture interrupts enabled (R27). -/
  armed : Bool
  /-- `now()` at the step that reset `count` to 0 (R28). -/
  armTs : Nat
  /-- The completion latch (R29). -/
  completePending : Bool
  /-- The reading registers (R30). -/
  reading : Reading
  /-- The reading is the result of an OK decode of the current attempt (R32). -/
  dataValid : Bool
  /-- Sequencer state (R33). -/
  phase : Phase
  /-- Composite command in progress (R33). -/
  cur : Cur
  /-- Line direction (R34). -/
  lineDir : LineDir
  /-- Level driven when the direction is OUT (R34). -/
  lineDrv : Level
deriving DecidableEq, Repr

/-- The call `sleep_ms(T_START_MIN_MS, T_START_MAX_MS)` the sleep collaborator is serving (R81, R118):
when it began, and its two arguments. It is the environment's, not one of R20's elements; no step
of the block reads it. Log entry 10. -/
structure SleepCall where
  since : Nat
  minMs : Nat
  maxMs : Nat
deriving DecidableEq, Repr

/-- One device instance with its surroundings: the block's own state (R20), the clock it sees (R117),
its response port (R61) and the sleep collaborator (R118). -/
structure Device where
  blk : Block
  /-- The clock of R117, an unbounded count of microseconds; `now()` is it modulo `2^W`. -/
  tau : Nat
  /-- Every response emitted on this instance's response port, oldest first (R61). -/
  responses : List Status
  /-- The sleep in progress, if any. -/
  sleep : Option SleepCall
  /-- The model's own counter of the free bytes `any8` drawn so far (R19, U5; log entry 5). -/
  draws : Nat
deriving DecidableEq, Repr

/-- What takes a step (R18, R68): a word arrives on one of the two input ports, or the environment
ends the start condition's sleep (RELEASE), or the command engine tries its acknowledge poll (POLL)
or READ's completion wait (WAKE). -/
inductive Action where
  | port (w : PortWord)
  | release
  | poll
  | wake
deriving DecidableEq, Repr

/-- One draw of the environment (R36): which instance steps, how many microseconds its clock has
advanced since its step before (R117: never backwards), and what the step is. -/
structure Event where
  dev : Nat
  dt : Nat
  act : Action
deriving DecidableEq, Repr

/-- The machine: the parameters (R12 to R16), the `N_INST` device instances (R17), the instance whose
ports the step in progress uses, and the draws of the environment that are still to come (R36). -/
structure State where
  cfg : Params
  devices : List Device
  sel : Nat
  script : List Event
deriving DecidableEq, Repr

/-- Why the machine stops with a fault. Both are R40's, for the model only: no reachable state raises one,
so stopping is safe. -/
inductive Fault where
  /-- Raised by `TLRead` of a slot nothing has written (R40, U3). Safe. -/
  | unwrittenSlot (i : Nat)
  /-- Raised by `TLRead` and `TLWrite` of an index outside 0 to 83 (R40: "requires 0 ≤ i ≤ 83"). Safe. -/
  | slotOutOfRange (i : Nat)
deriving DecidableEq, Repr

/-- Why the model refuses an input; the run is then excluded (93_implementation_defined.md section 1). -/
inductive Refusal where
  /-- The arm of exec has no meaning yet. Safe. -/
  | notModelled (mnemonic : String)
  /-- Raised by step for the opcodes 0b000, 0b110 and 0b111 (R59, U1). Safe. -/
  | reservedOpcode (op : Nat)
  /-- Raised by step for a number that is no word of its port (R57, R60). Safe. -/
  | wordTooWide (w : Nat)
  /-- Raised by every command while `phase ≠ IDLE` (R79, U14). Safe. -/
  | commandWhileBusy
  /-- Raised by every step on the ports of an instance the machine does not have (R17). Safe. -/
  | noSuchInstance (dev : Nat)
deriving DecidableEq, Repr

/-- The state of instance `k` after reset (R123), with free values where the spec says unwritten
(DESIGN CHOICE, log entry 6). -/
def Block.reset (cfg : Params) (k : Nat) : Block where
  tl := []
  count := .sentinel
  armed := false
  armTs := (Config.initialArmTs k cfg.tsWidth).toNat
  completePending := false
  reading := Reading.free k 0
  dataValid := false
  phase := .idle
  cur := .none
  lineDir := .input
  lineDrv := .high

/-- Device instance `k` after reset: the block of R123, a clock at 0 (log entry 4), nothing emitted on the
response port, no sleep in progress, and the reading's five free bytes drawn (log entries 5 and 6). -/
def Device.reset (cfg : Params) (k : Nat) : Device where
  blk := Block.reset cfg k
  tau := 0
  responses := []
  sleep := none
  draws := 5

/-- A machine of `n` instances with the parameters `cfg`, after reset, before the environment has drawn
anything (R120, R123, R125). -/
def State.resetWith (cfg : Params) (n : Nat) : State where
  cfg := cfg
  devices := (List.range n).map (Device.reset cfg)
  sel := 0
  script := []

/-- The machine right after reset, with the spec's default parameters and one instance (log entries 3
and 4). -/
def State.reset : State := State.resetWith Params.defaults 1

end Sys2Proof.Machine
end

