-- ==== Sys2Proof/Machine/Operands.lean ====
section
/-! DEFINITION. Machine/Operands.lean: the values a step works on: the clock, modular subtraction of
timestamps, the views of the cursor, and the bits of a byte (R19, R26, R48, R116, R117). -/

namespace Sys2Proof.Machine

/-- `a -_W b`, which is `(a - b) mod 2^W` (R19). -/
def subW (width a b : Nat) : Nat :=
  (BitVec.ofNat width a - BitVec.ofNat width b).toNat

/-- `now() = τ mod 2^W` (R117). -/
def Device.now (cfg : Params) (d : Device) : Nat :=
  d.tau % 2 ^ cfg.tsWidth

/-- The clock moves on by `dt` microseconds; it never goes back (R117). -/
def Device.advance (dt : Nat) (d : Device) : Device :=
  { d with tau := d.tau + dt }

/-- The 8-bit view of the cursor (R26): 0 to 84 encode themselves, SENTINEL is 0xFF. -/
def Count.view : Count → Byte
  | .sentinel => 0xFF#8
  | .val n => BitVec.ofNat 8 n.val

/-- The cursor an 8-bit view stands for; 85 to 254 are never held (R26). -/
def Count.ofView (v : Byte) : Option Count :=
  if v = 0xFF#8 then some .sentinel
  else if h : v.toNat < 85 then some (.val ⟨v.toNat, h⟩) else none

/-- The 2-bit code of the sequencer state (R33). -/
def Phase.code : Phase → BitVec 2
  | .idle => 0
  | .startLow => 1
  | .awaitAck => 2
  | .waitComplete => 3

/-- The bit of the line direction: IN = 0, OUT = 1 (R34). -/
def LineDir.toBit : LineDir → Bool
  | .input => false
  | .output => true

/-- `((v << 1) | b)[7:0]`: bits accumulate most significant first (R48, R98). -/
def pushBit (v : Byte) (b : Bool) : Byte :=
  (v <<< 1) ||| (if b then 1#8 else 0#8)

end Sys2Proof.Machine
end

