-- ==== Sys2Proof/Machine/Flags.lean ====
section
/-! DEFINITION. Machine/Flags.lean: every threshold comparison of the block: the two timeouts (R83, R84),
the dual-threshold classifier (R97) and the checksum test (R99). All compare unsigned, strictly. -/

namespace Sys2Proof.Machine

/-- `(now() -_W arm_ts) > ACK_TIMEOUT_US` (R83). -/
def ackExpired (cfg : Params) (n armTs : Nat) : Bool :=
  decide (cfg.ackTimeoutUs < subW cfg.tsWidth n armTs)

/-- `(n -_W ref) > EDGE_TIMEOUT_US` (R84). -/
def edgeExpired (cfg : Params) (n ref : Nat) : Bool :=
  decide (cfg.edgeTimeoutUs < subW cfg.tsWidth n ref)

/-- What the pulse-width classifier answers (R97). -/
inductive Pulse where
  | tooLong
  | bit (b : Bool)
deriving DecidableEq, Repr

/-- The dual-threshold comparator on a duration, total for every pair of thresholds (R16, R97). -/
def classify (cfg : Params) (d : Nat) : Pulse :=
  if cfg.bit1MaxUs < d then .tooLong
  else if cfg.bit0MaxUs < d then .bit true
  else .bit false

/-- The checksum a frame must carry: the modulo-256 sum of its four data bytes (R99). -/
def checksum (humInt humDec tmpInt tmpDec : Byte) : Byte :=
  humInt + humDec + tmpInt + tmpDec

end Sys2Proof.Machine
end

