-- ==== Sys2Proof/Machine/Ops.lean ====
section
/-! DEFINITION. Machine/Ops.lean: the named operations every step is made of: the timeline's primitives
(R40), the line shim's collaborators (R118), the response (R61), and how a step reaches its device instance (R17, R79).

There is no trap to take and none to return from: every failure is a status in a response (R105, R113,
R114). `respond`, with `finish` over it, is how every command ends, failed or not. -/

namespace Sys2Proof.Machine

/-! ### The timeline as memory -/

/-- The entry at an index, none where nothing was written (R24). -/
def Memory.get? : Memory → Nat → Option Edge
  | [], _ => none
  | (a, e) :: m, i => if a = i then some e else Memory.get? m i

/-- The timeline with one entry written, in canonical form. -/
def Memory.set : Memory → Nat → Edge → Memory
  | [], i, e => [(i, e)]
  | (a, x) :: m, i, e =>
    if i < a then (i, e) :: (a, x) :: m
    else if a = i then (i, e) :: m
    else (a, x) :: Memory.set m i e

/-- Every index of the list lies above `lo` or at it, rises strictly, and exists (R39). -/
def Memory.risesFrom : Nat → Memory → Bool
  | _, [] => true
  | lo, (a, _) :: m => decide (lo ≤ a) && decide (a < Config.capacity) && Memory.risesFrom (a + 1) m

/-- The canonical form: indices strictly rising, each one of the 84. An unlisted slot holds no value
(R24), so no entry can equal what it reads as. -/
def Memory.wf (m : Memory) : Bool :=
  Memory.risesFrom 0 m

/-- `TLRead(i)` (R40). -/
def tlRead (m : Memory) (i : Nat) : Except Fault Edge :=
  if i < Config.capacity then
    match m.get? i with
    | some e => .ok e
    | none => .error (.unwrittenSlot i)
  else .error (.slotOutOfRange i)

/-- `TLWrite(i, e)` (R40). -/
def tlWrite (m : Memory) (i : Nat) (e : Edge) : Except Fault Memory :=
  if i < Config.capacity then .ok (m.set i e) else .error (.slotOutOfRange i)

/-! ### The collaborators of R118, block side -/

/-- `configure_line_output()` (R118). -/
def Block.configureLineOutput (b : Block) : Block := { b with lineDir := .output }

/-- `configure_line_input()` (R118). -/
def Block.configureLineInput (b : Block) : Block := { b with lineDir := .input }

/-- `enable_line_interrupt()` (R118). -/
def Block.enableLineInterrupt (b : Block) : Block := { b with armed := true }

/-- `disable_line_interrupt()` (R118). -/
def Block.disableLineInterrupt (b : Block) : Block := { b with armed := false }

/-- `set_line_high()` (R118). -/
def Block.setLineHigh (b : Block) : Block := { b with lineDrv := .high }

/-- `set_line_low()` (R118). -/
def Block.setLineLow (b : Block) : Block := { b with lineDrv := .low }

/-- `notify_sequence_completed()`, written `notify()` (R19, R29, R118). -/
def Block.notify (b : Block) : Block := { b with completePending := true }

/-- `wait_for_completion()` returns: the notification is consumed (R88, R118). -/
def Block.consume (b : Block) : Block := { b with completePending := false }

/-- "disarm capture, reset count to SENTINEL": what ABORT_READ, the implicit abort and the acknowledge
timeout share (R81, R83, R86). -/
def Block.abort (b : Block) : Block :=
  { b.disableLineInterrupt with count := .sentinel }

/-- The sequencer enters a state of R33. -/
def Block.enter (p : Phase) (c : Cur) (b : Block) : Block := { b with phase := p, cur := c }

/-- A device with its block changed. -/
def Device.mapBlk (f : Block → Block) (d : Device) : Device := { d with blk := f d.blk }

/-- `respond(st)`: one status word on the response port (R19, R61). -/
def Device.respond (st : Status) (d : Device) : Device :=
  { d with responses := d.responses ++ [st] }

/-- `respond(st); s.phase <- IDLE; s.cur <- NONE`: how START_READ and READ end (R83, R88, R90). -/
def Device.finish (st : Status) (d : Device) : Device :=
  (d.respond st).mapBlk (Block.enter .idle .none)

/-- `sleep_ms(T_START_MIN_MS, T_START_MAX_MS)` begins (R81, R118). -/
def Device.beginSleep (cfg : Params) (d : Device) : Device :=
  { d with sleep := some { since := d.tau, minMs := cfg.tStartMinMs, maxMs := cfg.tStartMaxMs } }

/-- The sleep collaborator has returned (R82, R118). -/
def Device.endSleep (d : Device) : Device := { d with sleep := none }

/-- A fresh `any8` for each reading register (R19, R102, U5), and `data_valid` cleared. `k` is the
instance's number. Log entry 5. -/
def Device.forgetReading (k : Nat) (d : Device) : Device :=
  { d with
    blk := { d.blk with
      reading := Reading.free k d.draws
      dataValid := false }
    draws := d.draws + 5 }

/-! ### Reaching the instance -/

/-- What a step answers. -/
abbrev StepResult := Host.Outcome State Fault Refusal

/-- The device instance whose ports the step uses (R17, R18). -/
def State.dev? (s : State) : Option Device := s.devices[s.sel]?

/-- The state with that one instance replaced. -/
def State.putDev (s : State) (d : Device) : State :=
  { s with devices := s.devices.set s.sel d }

/-- A step of one instance: it reads and writes that instance alone (R18, R56). -/
def onDevice (s : State) (f : Device → Except Fault Device) : StepResult :=
  match s.dev? with
  | none => .refused (.noSuchInstance s.sel)
  | some d =>
    match f d with
    | .ok d' => .next (s.putDev d')
    | .error e => .fault e

/-- A command's first step: the port accepts it only while `phase = IDLE` (R79); a command presented
in any other phase is refused (U14). -/
def accept (s : State) (f : Device → Except Fault Device) : StepResult :=
  match s.dev? with
  | none => .refused (.noSuchInstance s.sel)
  | some d =>
    match d.blk.phase with
    | .idle => onDevice s f
    | .startLow => .refused .commandWhileBusy
    | .awaitAck => .refused .commandWhileBusy
    | .waitComplete => .refused .commandWhileBusy

end Sys2Proof.Machine
end

