-- ==== Sys2Proof/Machine/Capture.lean ====
section
/-! DEFINITION. Machine/Capture.lean: the capture path's one operation, EDGE (40_capture.md). -/

namespace Sys2Proof.Machine

/-- The atomic append (R44): the slot written, then the cursor advanced, then the completion latch set
when the timeline is complete (R74, R76). At 84 the edge is discarded (R75). -/
def appendEdge (e : Edge) (c : Fin 85) (b : Block) : Except Fault Block :=
  if h : c.val < Config.capacity then
    match tlWrite b.tl c.val e with
    | .error f => .error f
    | .ok m =>
      let b' := { b with tl := m, count := .val ⟨c.val + 1, Nat.succ_lt_succ h⟩ }
      .ok (if c.val + 1 = Config.capacity then b'.notify else b')
  else .ok b

/-- `record_edge` (R70): the cases of R71 to R75 in the order of R70's pseudocode. -/
def recordEdge (e : Edge) (b : Block) : Except Fault Block :=
  if b.armed then
    match b.count with
    | .sentinel => .ok b
    | .val c =>
      if c.val = 0 then
        match e.lvl with
        | .low => appendEdge e c b
        | .high => .ok b
      else appendEdge e c b
  else .ok b

/-- EDGE (R70). The capture path acts whatever the command engine's phase (R18, R110). -/
def execEdge (lvl : Level) (ts : Nat) (s : State) : StepResult :=
  onDevice s fun d =>
    match recordEdge { ts := ts, lvl := lvl } d.blk with
    | .ok b => .ok { d with blk := b }
    | .error f => .error f

end Sys2Proof.Machine
end

