-- ==== Sys2Proof/Machine/Decoder.lean ====
section
/-! DEFINITION. Machine/Decoder.lean: the status function, the frame decoder and GET_DATA (41_controller.md
R84, 42_decoder.md). -/

namespace Sys2Proof.Machine

/-- The time the status function measures from: `arm_ts` while `count = 0`, else the timestamp of the
last recorded edge (R84, decision D6). -/
def statusRef (b : Block) (c : Fin 85) : Except Fault Nat :=
  if c.val = 0 then .ok b.armTs
  else
    match tlRead b.tl (c.val - 1) with
    | .ok e => .ok e.ts
    | .error f => .error f

/-- The status function (R84): SENTINEL first, then 84, then the elapsed time (R112). -/
def statusFn (cfg : Params) (b : Block) (n : Nat) : Except Fault Status :=
  match b.count with
  | .sentinel => .ok .noData
  | .val c =>
    if c.val = Config.capacity then .ok .dataReady
    else
      match statusRef b c with
      | .ok ref => .ok (if edgeExpired cfg n ref then .errTimeout else .busy)
      | .error f => .error f

/-- What decoding a bit, a byte or a frame gives: a value, or the status of the failure (R98, R101). -/
inductive Decoded (α : Type) where
  | ok (v : α)
  | fail (st : Status)
deriving DecidableEq, Repr

/-- One bit from its three edges (R95 to R97): the levels are checked first, then the duration. -/
def decodeBit (cfg : Params) (e0 e1 e2 : Edge) : Decoded Bool :=
  if e0.lvl = .low ∧ e1.lvl = .high then
    match classify cfg (subW cfg.tsWidth e2.ts e1.ts) with
    | .tooLong => .fail .errTimeout
    | .bit b => .ok b
  else .fail .errSequenceInvalid

/-- Bit `i` of the byte at `off`, from the slots of its triplet (R94). -/
def readBit (cfg : Params) (m : Memory) (off i : Nat) : Except Fault (Decoded Bool) :=
  match tlRead m (off + 2 * i) with
  | .error f => .error f
  | .ok e0 =>
    match tlRead m (off + 2 * i + 1) with
    | .error f => .error f
    | .ok e1 =>
      match tlRead m (off + 2 * i + 2) with
      | .error f => .error f
      | .ok e2 => .ok (decodeBit cfg e0 e1 e2)

/-- The loop of R98 from bit `i` on, `k` bits still to read, `v` gathered so far. -/
def decodeBits (cfg : Params) (m : Memory) (off : Nat) :
    (k i : Nat) → (v : Byte) → Except Fault (Decoded Byte)
  | 0, _, v => .ok (.ok v)
  | k + 1, i, v =>
    match readBit cfg m off i with
    | .error f => .error f
    | .ok (.fail st) => .ok (.fail st)
    | .ok (.ok b) => decodeBits cfg m off k (i + 1) (pushBit v b)

/-- `decode_byte(tl, off)` (R98). The partial value of a failed byte is never observable, so it is not
kept. -/
def decodeByte (cfg : Params) (m : Memory) (off : Nat) : Except Fault (Decoded Byte) :=
  decodeBits cfg m off 8 0 0

/-- The checksum validator on three decoded bytes (R99), the decimal bytes taken as 0 (R93). -/
def validate (hi ti c : Byte) : Decoded Reading :=
  if c = checksum hi 0 ti 0 then
    .ok { humInt := hi, humDec := 0, tmpInt := ti, tmpDec := 0, crc := c }
  else .fail .errCrc

/-- `decode_fn(tl)` (R101): bytes in the order of R92, the first structural failure reported (R100). -/
def decodeFn (cfg : Params) (m : Memory) : Except Fault (Decoded Reading) :=
  match decodeByte cfg m Config.offHumInt with
  | .error f => .error f
  | .ok (.fail st) => .ok (.fail st)
  | .ok (.ok hi) =>
    match decodeByte cfg m Config.offTmpInt with
    | .error f => .error f
    | .ok (.fail st) => .ok (.fail st)
    | .ok (.ok ti) =>
      match decodeByte cfg m Config.offCrc with
      | .error f => .error f
      | .ok (.fail st) => .ok (.fail st)
      | .ok (.ok c) => .ok (validate hi ti c)

/-- What a decode leaves in `reading` and `data_valid` (R102), with the status to report. -/
def storeDecoded (k : Nat) (d : Device) : Decoded Reading → Status × Device
  | .ok r => (.ok, { d with blk := { d.blk with reading := r, dataValid := true } })
  | .fail st => (st, d.forgetReading k)

/-- `GET_DATA_BODY(s, now())` (R91), for the instance number `k`: anything but DataReady is answered
with no state change at all. -/
def getDataBody (cfg : Params) (k : Nat) (d : Device) : Except Fault (Status × Device) :=
  match statusFn cfg d.blk (d.now cfg) with
  | .error f => .error f
  | .ok .dataReady =>
    match decodeFn cfg d.blk.tl with
    | .error f => .error f
    | .ok res => .ok (storeDecoded k d res)
  | .ok st => .ok (st, d)

/-- GET_DATA (R91). -/
def execGetData (s : State) : StepResult :=
  accept s fun d =>
    match getDataBody s.cfg s.sel d with
    | .ok (st, d') => .ok (d'.respond st)
    | .error f => .error f

end Sys2Proof.Machine
end

