-- ==== Sys2Proof/Machine/Controller.lean ====
section
/-! DEFINITION. Machine/Controller.lean: the sequence controller: START_READ, CHECK_STATUS, ABORT_READ and
READ as the commands of the port, and the engine steps that finish START_READ and READ (41_controller.md). -/

namespace Sys2Proof.Machine

/-- START_BEGIN(op), the collaborators called in the order of R81: the implicit abort, the latch and the
flag cleared, the line made an output, capture armed, the line driven Low, and the sleep begun. -/
def startBegin (cfg : Params) (op : Cur) (d : Device) : Device :=
  let b := { d.blk.abort.consume with dataValid := false }
  let b := b.configureLineOutput.enableLineInterrupt.setLineLow
  { d with blk := b.enter .startLow op }.beginSleep cfg

/-- START_READ (R80): accepting it and its first step are one step (R79); `startRelease` and `ackPoll`
finish it. -/
def execStartRead (s : State) : StepResult :=
  accept s fun d => .ok (startBegin s.cfg .startRead d)

/-- CHECK_STATUS (R85). -/
def execCheckStatus (s : State) : StepResult :=
  accept s fun d =>
    match statusFn s.cfg d.blk (d.now s.cfg) with
    | .ok st => .ok (d.respond st)
    | .error f => .error f

/-- ABORT_READ (R86). -/
def execAbortRead (s : State) : StepResult :=
  accept s fun d => .ok ((d.mapBlk Block.abort).respond .ok)

/-- READ (R87): its first step, as START_READ's; `startRelease`, `ackPoll` and `waitDone` finish it. -/
def execRead (s : State) : StepResult :=
  accept s fun d => .ok (startBegin s.cfg .read d)

/-! ### The steps the environment or the engine takes (R68: RELEASE, POLL, WAKE)

A step that is not enabled is not taken: the engine holds, and the block is unchanged (R83, R88, R126).
Log entry 8. -/

/-- START_RELEASE is enabled while the start condition is held; when the sleep ends is the
environment's choice (R82, U9). -/
def releaseEnabled (b : Block) : Bool := decide (b.phase = .startLow)

/-- ACK_POLL is enabled when it acts (R83): `count ≠ 0`, or the acknowledge timeout has elapsed. -/
def pollActs (cfg : Params) (b : Block) (n : Nat) : Bool :=
  match b.count with
  | .sentinel => true
  | .val c => if c.val = 0 then ackExpired cfg n b.armTs else true

/-- WAIT_DONE is enabled when the completion latch is set (R88). -/
def wakeEnabled (b : Block) : Bool := decide (b.phase = .waitComplete) && b.completePending

/-- The effect of START_RELEASE (R82). -/
def releaseLine (cfg : Params) (d : Device) : Device :=
  let b := d.blk.setLineHigh
  let b := { b with count := .val 0, armTs := d.now cfg }
  { d with blk := b.configureLineInput.enter .awaitAck b.cur }.endSleep

/-- RELEASE: START_RELEASE (R82). -/
def startRelease (s : State) : StepResult :=
  onDevice s fun d => .ok (if releaseEnabled d.blk then releaseLine s.cfg d else d)

/-- The effect of ACK_POLL once it acts (R83); `count` is tested before the clock, so an edge wins. -/
def ackPollEffect (d : Device) : Device :=
  if d.blk.count = .val 0 then (d.mapBlk Block.abort).finish .errTimeout
  else
    match d.blk.cur with
    | .read => d.mapBlk (Block.enter .waitComplete .read)
    | .startRead => d.finish .ok
    | .none => d

/-- POLL: ACK_POLL (R83). -/
def ackPoll (s : State) : StepResult :=
  onDevice s fun d =>
    match d.blk.phase with
    | .awaitAck =>
      .ok (if pollActs s.cfg d.blk (d.now s.cfg) then ackPollEffect d else d)
    | .idle => .ok d
    | .startLow => .ok d
    | .waitComplete => .ok d

/-- WAKE: WAIT_DONE (R88), which consumes the latch and then runs GET_DATA's body. -/
def waitDone (s : State) : StepResult :=
  onDevice s fun d =>
    if wakeEnabled d.blk then
      match getDataBody s.cfg s.sel (d.mapBlk Block.consume) with
      | .ok (st, d') => .ok (d'.finish st)
      | .error f => .error f
    else .ok d

end Sys2Proof.Machine
end

