-- ==== Sys2Proof/Machine/Dispatch.lean ====
section
/-! DEFINITION. Machine/Dispatch.lean: one arm per operation of the opcode table. -/

namespace Sys2Proof.Machine

def exec (i : Instr) (s : State) : Host.Outcome State Fault Refusal :=
  match i with
  | .startRead => Sys2Proof.Machine.execStartRead s
  | .checkStatus => Sys2Proof.Machine.execCheckStatus s
  | .abortRead => Sys2Proof.Machine.execAbortRead s
  | .getData => Sys2Proof.Machine.execGetData s
  | .read => Sys2Proof.Machine.execRead s
  | .edge lvl ts => Sys2Proof.Machine.execEdge lvl ts s

end Sys2Proof.Machine
end

