-- ==== Sys2Proof/Machine/Transaction.lean ====
section
/-! DEFINITION. Machine/Transaction.lean: one draw of the environment at work: the clock of the instance moves
on, and the named agent takes its step (R18, R36, R68). -/

namespace Sys2Proof.Machine

/-- The refusal a rejected port word ends in (R59, U1). -/
def refusalOf : DecodeError → Refusal
  | .reservedOpcode op => .reservedOpcode op
  | .tooWide w => .wordTooWide w

/-- The instance whose turn it is, selected, with its clock moved on; `rest` is still to come (R36,
R117). -/
def State.begin (s : State) (ev : Event) (rest : List Event) : State :=
  { s with
    devices := s.devices.modify ev.dev (Device.advance ev.dt)
    sel := ev.dev
    script := rest }

/-- A word on a port: decode it and run the operation (R57, R60, R67). -/
def portStep (w : PortWord) (s : State) : StepResult :=
  match decode s.cfg.tsWidth w with
  | .ok i => exec i s
  | .error e => .refused (refusalOf e)

/-- The step an action names (R68). -/
def actionStep (a : Action) (s : State) : StepResult :=
  match a with
  | .port w => portStep w s
  | .release => startRelease s
  | .poll => ackPoll s
  | .wake => waitDone s

/-- The step of the machine: the next draw of the environment. With none left nothing happens: the
block waits for a command or an edge (R123, R135). -/
def takeStep (s : State) : StepResult :=
  match s.script with
  | [] => .next s
  | ev :: rest => actionStep ev.act (s.begin ev rest)

end Sys2Proof.Machine
end

