-- ==== Sys2Proof/Machine/Step.lean ====
section
/-! DEFINITION. Machine/Step.lean: the machine's one step, and the state that runs a given word next. -/

namespace Sys2Proof.Machine

/-- One atomic step of R18. -/
def step (s : State) : Host.Outcome State Fault Refusal :=
  takeStep s

/-- `s` with a word presented next on the selected instance's port, at the same clock value. The block
fetches nothing (R54): a word comes from outside, as the next draw of the environment. Log entry 9. -/
def State.withFetchWord (s : State) (nbits w : Nat) : State :=
  { s with script := { dev := s.sel, dt := 0, act := .port (tableWord nbits w) } :: s.script }

end Sys2Proof.Machine
end

