-- ==== Sys2Proof/Machine/Ports.lean ====
section
/-! DEFINITION. Machine/Ports.lean: what the outside sees of an instance: response codes and names (R62 to
R64), the reading port (R65), the line-control outputs (R66), and the source's controller states as views
of the state (R37). -/

namespace Sys2Proof.Machine

/-- The 3-bit code of a status on the response port (R62). -/
def statusCode : Status → BitVec 3
  | .ok => 0
  | .noData => 1
  | .busy => 2
  | .dataReady => 3
  | .errTimeout => 4
  | .errSequenceInvalid => 5
  | .errCrc => 6

/-- `status_name`, the human-readable name of a 3-bit code (R64). -/
def statusName (c : BitVec 3) : String :=
  match c.toNat with
  | 0 => "OK"
  | 1 => "NO_DATA"
  | 2 => "BUSY"
  | 3 => "DATA_READY"
  | 4 => "ERR_TIMEOUT"
  | 5 => "ERR_SEQUENCE_INVALID"
  | 6 => "ERR_CRC"
  | _ => "UNKNOWN"

/-- The three failure kinds of R106. -/
def Status.isFailure : Status → Bool
  | .errTimeout => true
  | .errSequenceInvalid => true
  | .errCrc => true
  | .ok => false
  | .noData => false
  | .busy => false
  | .dataReady => false

/-- `{ hum_int, hum_dec, tmp_int, tmp_dec, crc }`, the first byte most significant (R49, R65). -/
def Reading.pack (r : Reading) : BitVec 40 :=
  (r.humInt.setWidth 40 <<< 32) ||| (r.humDec.setWidth 40 <<< 24) |||
    (r.tmpInt.setWidth 40 <<< 16) ||| (r.tmpDec.setWidth 40 <<< 8) ||| r.crc.setWidth 40

/-- The reading port (R65): `data_valid`, and `rd` with it. While `data_valid = 0` the model gives `rd`
no value (R65, U6). -/
def Block.readingPort (b : Block) : Bool × Option (BitVec 40) :=
  if b.dataValid then (true, some b.reading.pack) else (false, none)

/-- The line-control outputs `line_dir`, `line_drv` and `irq_en`, one bit each (R66). -/
structure LineOutputs where
  lineDir : Bool
  lineDrv : Bool
  irqEn : Bool
deriving DecidableEq, Repr

/-- The outputs to the line shim: `irq_en = armed` (R66). -/
def Block.lineOutputs (b : Block) : LineOutputs where
  lineDir := b.lineDir.toBit
  lineDrv :=
    match b.lineDrv with
    | .low => false
    | .high => true
  irqEn := b.armed

/-- The source's state Idle (R37). -/
def Block.viewIdle (b : Block) : Bool :=
  decide (b.count = .sentinel) && decide (b.phase = .idle)

/-- The source's state AwaitAck (R37). -/
def Block.viewAwaitAck (b : Block) : Bool :=
  decide (b.phase = .startLow) || decide (b.phase = .awaitAck)

/-- The source's state Capturing (R37). -/
def Block.viewCapturing (b : Block) : Bool :=
  (match b.count with
    | .sentinel => false
    | .val n => decide (1 ≤ n.val) && decide (n.val ≤ 83)) &&
  (decide (b.phase = .idle) || decide (b.phase = .waitComplete))

/-- The source's state Complete (R37). -/
def Block.viewComplete (b : Block) : Bool :=
  decide (b.count = .val 84)

end Sys2Proof.Machine
end

