-- ==== Sys2Proof/Machine/Script.lean ====
section
/-! DEFINITION. Machine/Script.lean: the spec's own script notation (30_encoding.md R68, R69) as data: the
lines, what each is worth as a draw of the environment, the pseudo-instructions and their end times, and
when a script is well formed and at its end (R68, R135). -/

namespace Sys2Proof.Machine

/-- What one line of a script names (R68). -/
inductive LineOp where
  | startRead
  | checkStatus
  | abortRead
  | getData
  | read
  | release
  | poll
  | wake
  | edge (lvl : Level)
deriving DecidableEq, Repr

/-- A line, `op @ time`, with the response `-> X` it is annotated with, if any (R68). -/
structure Line where
  op : LineOp
  time : Nat
  expect : Option Status := none
deriving DecidableEq, Repr

/-- The step a line denotes: its operation's word on the port, or the unencoded step (R68). -/
def Line.action (width : Nat) (l : Line) : Action :=
  match l.op with
  | .startRead => .port (encode width .startRead)
  | .checkStatus => .port (encode width .checkStatus)
  | .abortRead => .port (encode width .abortRead)
  | .getData => .port (encode width .getData)
  | .read => .port (encode width .read)
  | .edge lvl => .port (encode width (.edge lvl (l.time % 2 ^ width)))
  | .release => .release
  | .poll => .poll
  | .wake => .wake

/-- The responses a script's `-> X` annotations state, in order (R68). -/
def linesExpected (ls : List Line) : List Status := ls.filterMap Line.expect

/-- The draws a script stands for on instance `dev`, whose clock shows `clk`. DESIGN CHOICE, log entry 22: a
line gives `now()` only modulo `2^W` (R68), and the clock may be at any later value that shows it (R117);
the least advance is taken, so a line is reached within one clock period of the line before it. -/
def assemble (width dev : Nat) : (clk : Nat) → List Line → List Event
  | _, [] => []
  | clk, l :: ls =>
    { dev := dev, dt := subW width l.time clk, act := l.action width } ::
      assemble width dev l.time ls

/-! ### Pseudo-instructions (R69): each gives its edges and the time the next item starts -/

/-- `EDGE L @ t`, `EDGE H @ t + a`: the pair of edges every item is made of (R69). -/
def edgePair (a t : Nat) : List Line :=
  [{ op := .edge .low, time := t }, { op := .edge .high, time := t + a }]

/-- `ACK a @ t` (R69). -/
def pseudoAck (a t : Nat) : List Line × Nat := (edgePair a t, t + 2 * a)

/-- `BIT b @ t` (R69). -/
def pseudoBit (b : Bool) (t : Nat) : List Line × Nat :=
  (edgePair 50 t, t + if b then 120 else 77)

/-- One BIT after another. -/
def pseudoBits : List Bool → Nat → List Line × Nat
  | [], t => ([], t)
  | b :: bs, t =>
    let first := pseudoBit b t
    let more := pseudoBits bs first.2
    (first.1 ++ more.1, more.2)

/-- The bits of a byte, `v[7]` first (R48, R69). -/
def byteBits (v : Byte) : List Bool :=
  [v.getLsbD 7, v.getLsbD 6, v.getLsbD 5, v.getLsbD 4,
   v.getLsbD 3, v.getLsbD 2, v.getLsbD 1, v.getLsbD 0]

/-- `BYTE v @ t` (R69). -/
def pseudoByte (v : Byte) (t : Nat) : List Line × Nat := pseudoBits (byteBits v) t

/-- `TAIL @ t` (R69). -/
def pseudoTail (t : Nat) : List Line × Nat := (edgePair 50 t, t + 50)

/-- `FRAME hi hd ti td c; a @ t` (R69). -/
def pseudoFrame (hi hd ti td c : Byte) (a t : Nat) : List Line × Nat :=
  let ack := pseudoAck a t
  let bits := pseudoBits (byteBits hi ++ byteBits hd ++ byteBits ti ++ byteBits td ++ byteBits c) ack.2
  let tail := pseudoTail bits.2
  (ack.1 ++ bits.1 ++ tail.1, tail.2)

/-- The edges of lines that name edges, timestamps reduced modulo `2^W` (R60, R68). -/
def linesEdges (width : Nat) (ls : List Line) : List Edge :=
  ls.filterMap fun l =>
    match l.op with
    | .edge lvl => some { ts := l.time % 2 ^ width, lvl := lvl }
    | .startRead => none
    | .checkStatus => none
    | .abortRead => none
    | .getData => none
    | .read => none
    | .release => none
    | .poll => none
    | .wake => none

/-- The timeline that holds these edges from slot 0 on. -/
def memoryOf (es : List Edge) : Memory :=
  (List.range es.length).zip es

/-! ### Well-formed scripts and their end -/

/-- The step an action names is enabled at this instance: commands at IDLE (R79), the internal steps
when they act (R82, R83, R88), an edge always (R70). -/
def actionEnabled (cfg : Params) (d : Device) (a : Action) : Bool :=
  match a with
  | .port (.cmd _) => decide (d.blk.phase = .idle)
  | .port (.edge _) => true
  | .release => releaseEnabled d.blk
  | .poll =>
    decide (d.blk.phase = .awaitAck) && pollActs cfg d.blk (d.now cfg)
  | .wake => wakeEnabled d.blk

/-- Every one of the next `fuel` steps names a step that is enabled where it stands, and is taken (R68:
"A script is well formed only if every internal step it names is enabled at that point"). -/
def scriptRuns : (fuel : Nat) → State → Bool
  | 0, _ => true
  | fuel + 1, s =>
    match s.script with
    | [] => true
    | ev :: rest =>
      (match (s.begin ev rest).dev? with
        | some d => actionEnabled s.cfg d ev.act
        | none => false) &&
      (match step s with
        | .next t => scriptRuns fuel t
        | .fault _ => false
        | .refused _ => false)

/-- The script still to come is well formed (R68). -/
def State.scriptOk (s : State) : Bool := scriptRuns s.script.length s

/-- A script ends when its last line's step has been taken (R135). -/
def State.scriptEnded (s : State) : Bool := s.script.isEmpty

/-- A command-level run has ended on an instance when its last command has responded and the phase is
IDLE (R135). DESIGN CHOICE, log entry 21: "the last command issued" is taken as the last one accepted so
far, so a run counts as ended before its first command, and between two commands of a script. -/
def Device.commandsEnded (d : Device) : Bool := decide (d.blk.phase = .idle)

/-- The platform's obligation on the start condition (R82, U9): the line has been held low for at least
T_START_MIN_MS milliseconds. The block does not check it (R135). -/
def Device.sleepLongEnough (d : Device) : Bool :=
  match d.sleep with
  | some c => decide (c.minMs * 1000 ≤ d.tau - c.since)
  | none => true

end Sys2Proof.Machine
end

