-- ==== Sys2Proof/Safety.lean ====
section
/-! DEFINITION. Safety.lean: the invariant of the machine, in the terms its claims use: 10_state.md R38 and
what the other rules add to it. -/

namespace Sys2Proof.Machine

/-- A slot of the timeline holds an edge. -/
def Block.written (b : Block) (k : Nat) : Prop := ∃ e, b.tl.get? k = some e

/-- What holds of every reachable device instance. Item numbers are those of R38; that `count` never
exceeds 84 (item 1) is its type. Where no item is named, the clause is DEDUCED from the rules given;
log entry 11. -/
structure Device.Inv (cfg : Params) (d : Device) : Prop where
  /-- The timeline is in its one canonical form (R39). -/
  tl_wf : d.blk.tl.wf = true
  /-- Every recorded timestamp is a `W`-bit value (R23). -/
  tl_ts : ∀ k e, d.blk.tl.get? k = some e → e.ts < 2 ^ cfg.tsWidth
  /-- The arm time is a `W`-bit value (R28). -/
  armTs_ts : d.blk.armTs < 2 ^ cfg.tsWidth
  /-- Item 3: the slots below the cursor are written. -/
  below_written : ∀ n, d.blk.count = .val n → ∀ k, k < n.val → d.blk.written k
  /-- Item 2: the first recorded edge is Low. -/
  first_low : ∀ n e, d.blk.count = .val n → 1 ≤ n.val → d.blk.tl.get? 0 = some e → e.lvl = .low
  /-- Item 6. -/
  idle_iff : d.blk.phase = .idle ↔ d.blk.cur = .none
  /-- Only READ waits for completion (R83, R88). -/
  wait_read : d.blk.phase = .waitComplete → d.blk.cur = .read
  /-- Item 7, first part. -/
  waiting_line : d.blk.phase = .awaitAck ∨ d.blk.phase = .waitComplete →
    d.blk.armed = true ∧ d.blk.lineDir = .input
  /-- Item 7, second part, and what START_BEGIN clears (R81). -/
  start_low : d.blk.phase = .startLow →
    d.blk.armed = true ∧ d.blk.lineDir = .output ∧ d.blk.lineDrv = .low ∧ d.blk.count = .sentinel ∧
      d.blk.completePending = false
  /-- The acknowledge wait begins with `count = 0` (R82), and only a response or an abort leaves it. -/
  waiting_count : d.blk.phase = .awaitAck ∨ d.blk.phase = .waitComplete → d.blk.count ≠ .sentinel
  /-- `count = 0` only while the acknowledge is awaited (R85's corner case). -/
  zero_await : d.blk.count = .val 0 → d.blk.phase = .awaitAck
  /-- A sequence in progress has its capture armed (R27). -/
  counting : d.blk.count ≠ .sentinel → d.blk.armed = true
  /-- With no sequence and no command in progress, capture is disarmed (R27, R81, R86). -/
  idle_disarmed : d.blk.count = .sentinel → d.blk.phase = .idle → d.blk.armed = false
  /-- Item 5: the latch means a complete timeline, or an ABORT_READ since. -/
  pending_full : d.blk.completePending = true →
    d.blk.count = .val 84 ∨ (d.blk.count = .sentinel ∧ d.blk.phase = .idle)
  /-- While a START_READ or READ waits, a complete timeline still has its notification (R50 (2), R76). -/
  full_pending : d.blk.phase = .awaitAck ∨ d.blk.phase = .waitComplete → d.blk.count = .val 84 →
    d.blk.completePending = true
  /-- A valid reading is an OK one (R31, R32, R99), held while no command is in progress. -/
  valid_reading : d.blk.dataValid = true → d.blk.phase = .idle ∧ d.blk.reading.humDec = 0 ∧
    d.blk.reading.tmpDec = 0 ∧ d.blk.reading.crc = d.blk.reading.humInt + d.blk.reading.tmpInt
  /-- A valid reading is the decode of the timeline that is still there, unless it was aborted (R32). -/
  valid_count : d.blk.dataValid = true →
    (d.blk.count = .val 84 ∧ decodeFn cfg d.blk.tl = .ok (.ok d.blk.reading)) ∨
      d.blk.count = .sentinel
  /-- A sleep is in progress exactly while the start condition is held (R81, R82). -/
  sleep_iff : d.sleep ≠ none ↔ d.blk.phase = .startLow

/-- The machine's invariant: the parameters are ones the spec admits (R12, R16), there is an instance
(R17), and every instance meets its own. -/
structure State.Inv (s : State) : Prop where
  params : s.cfg.wf = true
  instances : 1 ≤ s.devices.length
  device : ∀ d ∈ s.devices, d.Inv s.cfg

end Sys2Proof.Machine
end

