-- ==== Sys2Proof/Certificates/Slice0/Obligations.lean ====
section
/-! DEFINITION. Certificates/Slice0/Obligations.lean: what is claimed of the model, for the provers. -/

namespace Sys2Proof.Claims

open Sys2Proof.Machine

/-- The timeline holds the edge `E k` in every slot `k` from `lo` to `hi`. -/
def Holds (m : Memory) (E : Nat → Edge) (lo hi : Nat) : Prop :=
  ∀ k, lo ≤ k → k ≤ hi → m.get? k = some (E k)

/-- The levels a bit needs (R95): `e0` Low and `e1` High. -/
def LevelsOk (E : Nat → Edge) (off i : Nat) : Prop :=
  (E (off + 2 * i)).lvl = .low ∧ (E (off + 2 * i + 1)).lvl = .high

/-- A bit's duration, `e2.ts -_W e1.ts` (R96). -/
def duration (width : Nat) (E : Nat → Edge) (off i : Nat) : Nat :=
  subW width (E (off + 2 * i + 2)).ts (E (off + 2 * i + 1)).ts

/-- A bit that decodes (R95, R97). -/
def BitOk (cfg : Params) (E : Nat → Edge) (off i : Nat) : Prop :=
  LevelsOk E off i ∧ duration cfg.tsWidth E off i ≤ cfg.bit1MaxUs

/-- The byte whose bit `7 - i` says whether the duration of bit `i` exceeds the bit-0 bound (R48, R97). -/
def IsByteAt (cfg : Params) (E : Nat → Edge) (off : Nat) (v : Byte) : Prop :=
  ∀ i, i < 8 → v.getLsbD (7 - i) = decide (cfg.bit0MaxUs < duration cfg.tsWidth E off i)

/-- The slots whose levels the decoder looks at, and the slots whose timestamps it looks at (R42, R93). -/
def readsLevel (k : Nat) : Prop := (2 ≤ k ∧ k ≤ 17) ∨ (34 ≤ k ∧ k ≤ 49) ∨ (66 ≤ k ∧ k ≤ 81)

def readsTime (k : Nat) : Prop := readsLevel k ∨ k = 18 ∨ k = 50 ∨ k = 82

/-- A step of the machine seen at the one instance it steps: `ev` is the draw it takes, `d` that instance
before the step and `d'` after it. -/
def StepsTo (s t : State) (ev : Event) (d d' : Device) : Prop :=
  step s = .next t ∧ s.script.head? = some ev ∧ s.devices[ev.dev]? = some d ∧
    t.devices[ev.dev]? = some d'

/-- The instances differ at most in `arm_ts` while `count` is SENTINEL, and in the reading while `data_valid`
is 0. -/
def SameButUnseen (d e : Device) : Prop :=
  ∃ x r, e = { d with blk := { d.blk with armTs := x, reading := r } } ∧
    (d.blk.count ≠ .sentinel → x = d.blk.armTs) ∧ (d.blk.dataValid = true → r = d.blk.reading)

/-- The draw is this operation, on its port. -/
def Runs (s : State) (ev : Event) (i : Instr) : Prop :=
  ∃ w, ev.act = .port w ∧ decode s.cfg.tsWidth w = .ok i

/-- The draw is an edge event of the capture path. -/
def RunsEdge (s : State) (ev : Event) : Prop := ∃ lvl ts, Runs s ev (.edge lvl ts)

/-- One edge as a draw on instance `k`, its clock advanced by `x.1`. -/
def edgeEvent (cfg : Params) (k : Nat) (x : Nat × Edge) : Event where
  dev := k
  dt := x.1
  act := .port (encode cfg.tsWidth (.edge x.2.lvl x.2.ts))

end Sys2Proof.Claims

open Sys2Proof Sys2Proof.Machine Sys2Proof.Claims

/-! ### Encodings -/

/-- R57, R58, R60, R67: decoding an encoded well-formed operation gives it back, at every width and for
every operand. -/
def Obligations.DecodeOfEncode : Prop :=
  ∀ (width : Nat) (i : Instr), i.wf width = true → decode width (encode width i) = .ok i

/-- R67: no word is read as an operation whose word it is not. -/
def Obligations.EncodeOfDecode : Prop :=
  ∀ (width : Nat) (w : PortWord) (i : Instr),
    decode width w = .ok i → encode width i = w ∧ i.wf width = true

/-- R67, R58, R59: op = 1..5 selects the command, any other value of the 3-bit word is reserved. -/
def Obligations.CommandWordTable : Prop :=
  ∀ (width w : Nat), w < 8 →
    decode width (.cmd w) =
      if w = 1 then .ok .startRead
      else if w = 2 then .ok .checkStatus
      else if w = 3 then .ok .abortRead
      else if w = 4 then .ok .getData
      else if w = 5 then .ok .read
      else .error (.reservedOpcode w)

/-- R60: every `(W + 1)`-bit word is an edge event, with the level in bit `W` and the timestamp below it. -/
def Obligations.EdgeWordFields : Prop :=
  ∀ (width w : Nat), w < 2 ^ (width + 1) →
    ∃ lvl ts, ts < 2 ^ width ∧ w = (if lvl = .high then 2 ^ width else 0) + ts ∧
      decode width (.edge w) = .ok (.edge lvl ts)

/-- R58, R60: words written out from the spec's tables (95_test_vectors.md V-SCN, P6) decode as they
should. -/
def Obligations.SpecWordsDecode : Prop :=
  decodeTableWord 3 0b001 = some .startRead ∧ decodeTableWord 3 0b010 = some .checkStatus ∧
  decodeTableWord 3 0b011 = some .abortRead ∧ decodeTableWord 3 0b100 = some .getData ∧
  decodeTableWord 3 0b101 = some .read ∧ decodeTableWord 3 0b111 = none ∧
  decodeTableWord 33 0x000004A56 = some (.edge .low 19030) ∧
  decodeTableWord 33 0x1FFFFFFF3 = some (.edge .high 4294967283)

/-! ### What a step runs -/

/-- R18, R36, R67, R117: a step whose draw is a port word that decodes to `i` is `exec i`, at the instance
the draw names, its clock advanced, the draw consumed. -/
def Obligations.StepRunsDecoded : Prop :=
  ∀ (s : State) (ev : Event) (rest : List Event) (w : PortWord) (i : Instr),
    s.script = ev :: rest → ev.act = .port w → decode s.cfg.tsWidth w = .ok i →
    step s = exec i
      { s with
        devices := s.devices.modify ev.dev (fun d => { d with tau := d.tau + ev.dt })
        sel := ev.dev
        script := rest }

/-- R68: a step whose draw is RELEASE, POLL or WAKE takes START_RELEASE, ACK_POLL or WAIT_DONE there. -/
def Obligations.StepRunsEngine : Prop :=
  ∀ (s : State) (ev : Event) (rest : List Event), s.script = ev :: rest →
    let s' : State :=
      { s with
        devices := s.devices.modify ev.dev (fun d => { d with tau := d.tau + ev.dt })
        sel := ev.dev
        script := rest }
    (ev.act = .release → step s = startRelease s') ∧
    (ev.act = .poll → step s = ackPoll s') ∧
    (ev.act = .wake → step s = waitDone s')

/-- R59: the reserved opcodes are refused, whatever the state. -/
def Obligations.ReservedOpcodesRefused : Prop :=
  ∀ (s : State) (ev : Event) (rest : List Event) (w : Nat),
    s.script = ev :: rest → ev.act = .port (.cmd w) → w = 0 ∨ w = 6 ∨ w = 7 →
    step s = .refused (.reservedOpcode w)

/-- R79: a command is refused exactly while `phase ≠ IDLE`; an edge is never refused. -/
def Obligations.PortAcceptsAtIdle : Prop :=
  ∀ (s : State) (d : Device) (i : Instr), s.dev? = some d →
    ((d.blk.phase ≠ .idle ∧ ∀ lvl ts, i ≠ .edge lvl ts) ↔ exec i s = .refused .commandWhileBusy) ∧
    ∀ r, exec i s = .refused r → r = .commandWhileBusy

/-! ### The commands -/

/-- R81: START_BEGIN, the first step of START_READ, from any state at IDLE. -/
def Obligations.StartReadBegins : Prop :=
  ∀ (s : State) (d : Device), s.dev? = some d → d.blk.phase = .idle →
    exec .startRead s = .next (s.putDev
      { d with
        blk := { d.blk with
          armed := true, count := .sentinel, completePending := false, dataValid := false
          lineDir := .output, lineDrv := .low, phase := .startLow, cur := .startRead }
        sleep := some
          { since := d.tau, minMs := s.cfg.tStartMinMs, maxMs := s.cfg.tStartMaxMs } })

/-- R81, R87: START_BEGIN, the first step of READ. -/
def Obligations.ReadBegins : Prop :=
  ∀ (s : State) (d : Device), s.dev? = some d → d.blk.phase = .idle →
    exec .read s = .next (s.putDev
      { d with
        blk := { d.blk with
          armed := true, count := .sentinel, completePending := false, dataValid := false
          lineDir := .output, lineDrv := .low, phase := .startLow, cur := .read }
        sleep := some
          { since := d.tau, minMs := s.cfg.tStartMinMs, maxMs := s.cfg.tStartMaxMs } })

/-- R82: START_RELEASE, at any time while the start condition is held. -/
def Obligations.StartReleaseReleases : Prop :=
  ∀ (s : State) (d : Device), s.dev? = some d → d.blk.phase = .startLow →
    startRelease s = .next (s.putDev
      { d with
        blk := { d.blk with
          lineDrv := .high, count := .val 0, armTs := d.tau % 2 ^ s.cfg.tsWidth
          lineDir := .input, phase := .awaitAck }
        sleep := none })

/-- R83: ACK_POLL: the acknowledge ends START_READ and moves READ on, an edge wins over the clock, the
timeout aborts, and before it the engine holds. That a poll drawn while not enabled is a step that changes
nothing is log entry 8; that `count` not 0 takes in SENTINEL is log entry 13. -/
def Obligations.AckPollOutcomes : Prop :=
  ∀ (s : State) (d : Device), s.dev? = some d → d.blk.phase = .awaitAck →
    (d.blk.count ≠ .val 0 → d.blk.cur = .startRead →
      ackPoll s = .next (s.putDev
        { d with
          blk := { d.blk with phase := .idle, cur := .none }
          responses := d.responses ++ [.ok] })) ∧
    (d.blk.count ≠ .val 0 → d.blk.cur = .read →
      ackPoll s = .next (s.putDev { d with blk := { d.blk with phase := .waitComplete } })) ∧
    (d.blk.count = .val 0 →
      s.cfg.ackTimeoutUs < subW s.cfg.tsWidth (d.tau % 2 ^ s.cfg.tsWidth) d.blk.armTs →
      ackPoll s = .next (s.putDev
        { d with
          blk := { d.blk with armed := false, count := .sentinel, phase := .idle, cur := .none }
          responses := d.responses ++ [.errTimeout] })) ∧
    (d.blk.count = .val 0 →
      subW s.cfg.tsWidth (d.tau % 2 ^ s.cfg.tsWidth) d.blk.armTs ≤ s.cfg.ackTimeoutUs →
      ackPoll s = .next s)

/-- R84, R85: what CHECK_STATUS answers; nothing but the response changes. -/
def Obligations.CheckStatusAnswers : Prop :=
  ∀ (s : State) (d : Device), s.dev? = some d → d.blk.phase = .idle →
    let answers (st : Status) : Prop :=
      exec .checkStatus s = .next (s.putDev { d with responses := d.responses ++ [st] })
    let elapsed (ref : Nat) : Nat := subW s.cfg.tsWidth (d.tau % 2 ^ s.cfg.tsWidth) ref
    (d.blk.count = .sentinel → answers .noData) ∧
    (d.blk.count = .val 84 → answers .dataReady) ∧
    (d.blk.count = .val 0 →
      (s.cfg.edgeTimeoutUs < elapsed d.blk.armTs → answers .errTimeout) ∧
      (elapsed d.blk.armTs ≤ s.cfg.edgeTimeoutUs → answers .busy)) ∧
    (∀ (c : Fin 85) (e : Edge), d.blk.count = .val c → 1 ≤ c.val → c.val < 84 →
      d.blk.tl.get? (c.val - 1) = some e →
      (s.cfg.edgeTimeoutUs < elapsed e.ts → answers .errTimeout) ∧
      (elapsed e.ts ≤ s.cfg.edgeTimeoutUs → answers .busy))

/-- R40: where CHECK_STATUS stops: the slot it must read is unwritten. -/
def Obligations.CheckStatusStops : Prop :=
  ∀ (s : State) (d : Device), s.dev? = some d → d.blk.phase = .idle →
    ∀ c : Fin 85, d.blk.count = .val c → 1 ≤ c.val → c.val < 84 →
      d.blk.tl.get? (c.val - 1) = none →
      exec .checkStatus s = .fault (.unwrittenSlot (c.val - 1))

/-- R86: ABORT_READ, which leaves the timeline, the latch, the reading and the line as they are. -/
def Obligations.AbortReadResult : Prop :=
  ∀ (s : State) (d : Device), s.dev? = some d → d.blk.phase = .idle →
    exec .abortRead s = .next (s.putDev
      { d with
        blk := { d.blk with armed := false, count := .sentinel }
        responses := d.responses ++ [.ok] })

/-- R86 (S3): after ABORT_READ, from any state at IDLE, CHECK_STATUS answers NoData, GET_DATA the same, and
a second ABORT_READ changes nothing more in the block. -/
def Obligations.AbortLeavesNoData : Prop :=
  ∀ (s : State) (d : Device), s.dev? = some d → d.blk.phase = .idle →
    ∃ t d', exec .abortRead s = .next t ∧ t.dev? = some d' ∧
      exec .checkStatus t = .next (t.putDev { d' with responses := d.responses ++ [.ok, .noData] }) ∧
      exec .getData t = .next (t.putDev { d' with responses := d.responses ++ [.ok, .noData] }) ∧
      exec .abortRead t = .next (t.putDev { d' with responses := d.responses ++ [.ok, .ok] })

/-- R91, R102: on an incomplete timeline GET_DATA answers what CHECK_STATUS answers, and changes nothing
else either. -/
def Obligations.GetDataNotReady : Prop :=
  ∀ (s : State) (d : Device), s.dev? = some d → d.blk.count ≠ .val 84 →
    exec .getData s = exec .checkStatus s

/-- R91, R102: on a complete timeline GET_DATA reports the decode: an OK one fills the reading; a failed
one clears `data_valid` and leaves some reading, of which nothing is said. -/
def Obligations.GetDataReportsDecode : Prop :=
  ∀ (s : State) (d : Device), s.dev? = some d → d.blk.phase = .idle → d.blk.count = .val 84 →
    (∀ r, decodeFn s.cfg d.blk.tl = .ok (.ok r) →
      exec .getData s = .next (s.putDev
        { d with
          blk := { d.blk with reading := r, dataValid := true }
          responses := d.responses ++ [.ok] })) ∧
    (∀ st, decodeFn s.cfg d.blk.tl = .ok (.fail st) →
      ∃ r n, exec .getData s = .next (s.putDev
        { d with
          blk := { d.blk with reading := r, dataValid := false }
          responses := d.responses ++ [st]
          draws := n }))

/-- R91, R92, R102: GET_DATA completes whenever slots 2 to 82 of a complete timeline are written, with a
status the decoder can give, and touches only the reading, `data_valid` and the response. -/
def Obligations.GetDataCompletes : Prop :=
  ∀ (s : State) (d : Device) (E : Nat → Edge), s.dev? = some d → d.blk.phase = .idle →
    d.blk.count = .val 84 → Holds d.blk.tl E 2 82 →
    ∃ st r v n, exec .getData s = .next (s.putDev
        { d with
          blk := { d.blk with reading := r, dataValid := v }
          responses := d.responses ++ [st]
          draws := n }) ∧
      (v = true ↔ st = .ok) ∧ st ∈ [.ok, .errTimeout, .errSequenceInvalid, .errCrc]

/-- R46, R109: on one complete timeline, two GET_DATA give the same status, and the same reading when it
is OK; a decode failure repeats until a new start. -/
def Obligations.GetDataRepeats : Prop :=
  ∀ (s t : State) (d d' : Device) (st : Status), s.dev? = some d → d.blk.count = .val 84 →
    exec .getData s = .next t → t.dev? = some d' → d'.responses = d.responses ++ [st] →
    ∃ u d'', exec .getData t = .next u ∧ u.dev? = some d'' ∧
      d''.responses = d'.responses ++ [st] ∧ d''.blk.tl = d.blk.tl ∧ d''.blk.count = d.blk.count ∧
      (st = .ok → d''.blk = d'.blk)

/-- R88: WAIT_DONE consumes the latch, reports the decode of the complete timeline and ends READ. -/
def Obligations.WaitDoneEndsRead : Prop :=
  ∀ (s : State) (d : Device), s.dev? = some d → d.blk.phase = .waitComplete →
    d.blk.completePending = true → d.blk.count = .val 84 →
    (∀ r, decodeFn s.cfg d.blk.tl = .ok (.ok r) →
      waitDone s = .next (s.putDev
        { d with
          blk := { d.blk with
            completePending := false, reading := r, dataValid := true
            phase := .idle, cur := .none }
          responses := d.responses ++ [.ok] })) ∧
    (∀ st, decodeFn s.cfg d.blk.tl = .ok (.fail st) →
      ∃ r n, waitDone s = .next (s.putDev
        { d with
          blk := { d.blk with
            completePending := false, reading := r, dataValid := false
            phase := .idle, cur := .none }
          responses := d.responses ++ [st]
          draws := n }))

/-- R126: READ can wait for ever. While the latch is not set, however long the environment goes on and
whatever engine steps it tries, READ neither responds nor changes. -/
def Obligations.ReadCanWaitForEver : Prop :=
  ∀ (n : Nat) (s : State) (k : Nat) (d : Device), s.devices[k]? = some d →
    d.blk.phase = .waitComplete → d.blk.completePending = false →
    (∀ ev ∈ s.script, ev.dev = k ∧ (ev.act = .release ∨ ev.act = .poll ∨ ev.act = .wake)) →
    ∃ t d', Host.Core.run Sys2Proof.core n s = .next t ∧ t.devices[k]? = some d' ∧
      d'.blk = d.blk ∧ d'.responses = d.responses

/-- R80, R82, R83: START_READ from IDLE to its OK response: release, a Low edge, a poll, at any clock
values; the one edge is recorded in slot 0. -/
def Obligations.StartReadAcknowledged : Prop :=
  ∀ (s : State) (k : Nat) (d : Device) (x : Nat × Edge) (a b c : Nat) (rest : List Event),
    s.devices[k]? = some d → d.blk.phase = .idle → x.2.lvl = .low → x.2.ts < 2 ^ s.cfg.tsWidth →
    s.script =
      { dev := k, dt := a, act := .port (.cmd 1) } :: { dev := k, dt := b, act := .release } ::
      edgeEvent s.cfg k x :: { dev := k, dt := c, act := .poll } :: rest →
    ∃ t d', Host.Core.run Sys2Proof.core 4 s = .next t ∧ t.devices[k]? = some d' ∧
      d'.responses = d.responses ++ [.ok] ∧ d'.blk.phase = .idle ∧ d'.blk.count = .val 1 ∧
      d'.blk.tl.get? 0 = some x.2 ∧ d'.blk.armed = true ∧ d'.blk.lineDir = .input ∧ t.script = rest

/-- R80, R83 (S8): START_READ or READ with no acknowledge: a poll more than ACK_TIMEOUT_US after the
release answers ErrTimeout and leaves `count = SENTINEL` and capture disarmed. -/
def Obligations.StartReadTimesOut : Prop :=
  ∀ (s : State) (k : Nat) (d : Device) (op a b c : Nat) (rest : List Event),
    s.devices[k]? = some d → d.blk.phase = .idle → op = 1 ∨ op = 5 →
    s.cfg.ackTimeoutUs < c → c < 2 ^ s.cfg.tsWidth →
    s.script =
      { dev := k, dt := a, act := .port (.cmd op) } :: { dev := k, dt := b, act := .release } ::
      { dev := k, dt := c, act := .poll } :: rest →
    ∃ t d', Host.Core.run Sys2Proof.core 3 s = .next t ∧ t.devices[k]? = some d' ∧
      d'.responses = d.responses ++ [.errTimeout] ∧ d'.blk.phase = .idle ∧
      d'.blk.count = .sentinel ∧ d'.blk.armed = false ∧ d'.blk.tl = d.blk.tl

/-- R87, R88: READ from IDLE to its response, on any 84 edges whose first is Low and whose frame decodes
to `r`, whatever the clock does between the steps: the response is OK and the reading is `r`. -/
def Obligations.ReadDeliversFrame : Prop :=
  ∀ (s : State) (k : Nat) (d : Device) (x : Nat × Edge) (xs : List (Nat × Edge)) (a b c e : Nat)
    (rest : List Event) (r : Reading),
    s.devices[k]? = some d → d.blk.phase = .idle → xs.length = 83 → x.2.lvl = .low →
    (∀ y ∈ x :: xs, y.2.ts < 2 ^ s.cfg.tsWidth) →
    decodeFn s.cfg (memoryOf ((x :: xs).map Prod.snd)) = .ok (.ok r) →
    s.script =
      { dev := k, dt := a, act := .port (.cmd 5) } :: { dev := k, dt := b, act := .release } ::
      edgeEvent s.cfg k x :: { dev := k, dt := c, act := .poll } ::
      (xs.map (edgeEvent s.cfg k) ++ { dev := k, dt := e, act := .wake } :: rest) →
    ∃ t d', Host.Core.run Sys2Proof.core 88 s = .next t ∧ t.devices[k]? = some d' ∧
      d'.responses = d.responses ++ [.ok] ∧ d'.blk.reading = r ∧ d'.blk.dataValid = true ∧
      d'.blk.count = .val 84 ∧ d'.blk.completePending = false ∧ d'.blk.phase = .idle ∧
      t.script = rest

/-! ### The capture path -/

/-- R71, R72, R73, R75: the discarded edges leave no trace. -/
def Obligations.EdgeDiscarded : Prop :=
  ∀ (s : State) (d : Device) (lvl : Level) (ts : Nat), s.dev? = some d →
    d.blk.armed = false ∨ d.blk.count = .sentinel ∨ (d.blk.count = .val 0 ∧ lvl = .high) ∨
      d.blk.count = .val 84 →
    exec (.edge lvl ts) s = .next s

/-- R73, R74, R76, R77: a recorded edge is written whole at the cursor, the cursor advances by one, the
latch is set when the timeline is complete; every other slot and every other element is unchanged. -/
def Obligations.EdgeRecorded : Prop :=
  ∀ (s : State) (d : Device) (lvl : Level) (ts : Nat) (c : Fin 85), s.dev? = some d →
    d.blk.armed = true → d.blk.count = .val c → c.val < 84 → (c.val = 0 → lvl = .low) →
    ∃ (m : Memory) (n : Fin 85),
      exec (.edge lvl ts) s = .next (s.putDev
        { d with
          blk := { d.blk with
            tl := m, count := .val n
            completePending := d.blk.completePending || decide (c.val = 83) } }) ∧
      n.val = c.val + 1 ∧ m.get? c.val = some { ts := ts, lvl := lvl } ∧
      ∀ k, k ≠ c.val → m.get? k = d.blk.tl.get? k

/-- R70, R77, R110: an edge event is taken in every state of the instance, whatever the phase, and changes
at most the timeline, the cursor and the latch. -/
def Obligations.EdgeAlwaysCompletes : Prop :=
  ∀ (s : State) (d : Device) (lvl : Level) (ts : Nat), s.dev? = some d →
    ∃ b : Block, exec (.edge lvl ts) s = .next (s.putDev { d with blk := b }) ∧
      b.armed = d.blk.armed ∧ b.armTs = d.blk.armTs ∧ b.reading = d.blk.reading ∧
      b.dataValid = d.blk.dataValid ∧ b.phase = d.blk.phase ∧ b.cur = d.blk.cur ∧
      b.lineDir = d.blk.lineDir ∧ b.lineDrv = d.blk.lineDrv

/-- R133: every edge between START_BEGIN and START_RELEASE is discarded. -/
def Obligations.StartConditionDiscardsEdges : Prop :=
  ∀ (s : State) (d : Device) (lvl : Level) (ts : Nat), s.Inv → s.dev? = some d →
    d.blk.phase = .startLow → exec (.edge lvl ts) s = .next s

/-- R39, R40: the timeline's primitives: a whole entry is read back as it was written, every other index
as before, the canonical form is kept, an unwritten slot faults, and no other index exists. -/
def Obligations.TimelineReadWrite : Prop :=
  ∀ (m : Memory) (i : Nat) (e : Edge),
    (i ≤ 83 → ∃ m', tlWrite m i e = .ok m' ∧ tlRead m' i = .ok e ∧
      (∀ j, j ≠ i → tlRead m' j = tlRead m j) ∧ (m.wf = true → m'.wf = true)) ∧
    (i ≤ 83 → m.get? i = none → tlRead m i = .error (.unwrittenSlot i)) ∧
    (83 < i → tlRead m i = .error (.slotOutOfRange i) ∧ tlWrite m i e = .error (.slotOutOfRange i))

/-! ### The decoder -/

/-- R19: `a -_W b` on `W`-bit values. -/
def Obligations.ModularSubtraction : Prop :=
  ∀ (width a b : Nat), a < 2 ^ width → b < 2 ^ width →
    subW width a b = if b ≤ a then a - b else a + 2 ^ width - b

/-- R97, R16: the classifier, total for every pair of thresholds. -/
def Obligations.ClassifierTable : Prop :=
  ∀ (cfg : Params) (d : Nat),
    (classify cfg d = .tooLong ↔ cfg.bit1MaxUs < d) ∧
    (classify cfg d = .bit true ↔ cfg.bit0MaxUs < d ∧ d ≤ cfg.bit1MaxUs) ∧
    (classify cfg d = .bit false ↔ d ≤ cfg.bit0MaxUs ∧ d ≤ cfg.bit1MaxUs) ∧
    (cfg.bit1MaxUs ≤ cfg.bit0MaxUs → classify cfg d ≠ .bit true)

/-- R94, R95, R97, R98: a byte is assembled most significant bit first when its eight bits decode; else
the first bit that fails decides, its levels before its duration. -/
def Obligations.ByteAssembly : Prop :=
  ∀ (cfg : Params) (m : Memory) (off : Nat) (E : Nat → Edge), off ≤ 67 →
    Holds m E off (off + 16) →
    ((∀ i, i < 8 → BitOk cfg E off i) →
      ∃ v, decodeByte cfg m off = .ok (.ok v) ∧ IsByteAt cfg E off v) ∧
    (∀ i, i < 8 → (∀ j, j < i → BitOk cfg E off j) → ¬ LevelsOk E off i →
      decodeByte cfg m off = .ok (.fail .errSequenceInvalid)) ∧
    (∀ i, i < 8 → (∀ j, j < i → BitOk cfg E off j) → LevelsOk E off i →
      cfg.bit1MaxUs < duration cfg.tsWidth E off i → decodeByte cfg m off = .ok (.fail .errTimeout))

/-- R99, R100, R101: which status the frame gets from its three bytes, and the reading of an OK one. -/
def Obligations.FrameStatus : Prop :=
  ∀ (cfg : Params) (m : Memory),
    (∀ st, decodeByte cfg m 2 = .ok (.fail st) → decodeFn cfg m = .ok (.fail st)) ∧
    (∀ hi st, decodeByte cfg m 2 = .ok (.ok hi) → decodeByte cfg m 34 = .ok (.fail st) →
      decodeFn cfg m = .ok (.fail st)) ∧
    (∀ hi ti st, decodeByte cfg m 2 = .ok (.ok hi) → decodeByte cfg m 34 = .ok (.ok ti) →
      decodeByte cfg m 66 = .ok (.fail st) → decodeFn cfg m = .ok (.fail st)) ∧
    (∀ hi ti c, decodeByte cfg m 2 = .ok (.ok hi) → decodeByte cfg m 34 = .ok (.ok ti) →
      decodeByte cfg m 66 = .ok (.ok c) →
      (c.toNat = (hi.toNat + ti.toNat) % 256 → decodeFn cfg m =
        .ok (.ok { humInt := hi, humDec := 0, tmpInt := ti, tmpDec := 0, crc := c })) ∧
      (c.toNat ≠ (hi.toNat + ti.toNat) % 256 → decodeFn cfg m = .ok (.fail .errCrc)))

/-- R104: a complete timeline decodes OK exactly when the 24 bits of the three bytes have their levels and
no duration above the bit-1 bound, and the checksum byte is the sum modulo 256. -/
def Obligations.DecodeOkExactly : Prop :=
  ∀ (cfg : Params) (m : Memory) (E : Nat → Edge), Holds m E 2 82 →
    ∀ hi ti c : Byte, IsByteAt cfg E 2 hi → IsByteAt cfg E 34 ti → IsByteAt cfg E 66 c →
    ((∃ r, decodeFn cfg m = .ok (.ok r)) ↔
      (∀ i, i < 8 → BitOk cfg E 2 i ∧ BitOk cfg E 34 i ∧ BitOk cfg E 66 i) ∧
        c.toNat = (hi.toNat + ti.toNat) % 256) ∧
    ∀ r, decodeFn cfg m = .ok (.ok r) →
      r = { humInt := hi, humDec := 0, tmpInt := ti, tmpDec := 0, crc := c }

/-- R93, R42: the decode depends on no level of slots 0, 1, 18 to 33, 50 to 65, 82 and 83, and on no
timestamp among them but those of 18, 50 and 82. -/
def Obligations.UnusedSlotsIgnored : Prop :=
  ∀ (cfg : Params) (m m' : Memory) (E E' : Nat → Edge), Holds m E 2 82 → Holds m' E' 2 82 →
    (∀ k, readsLevel k → (E k).lvl = (E' k).lvl) → (∀ k, readsTime k → (E k).ts = (E' k).ts) →
    decodeFn cfg m = decodeFn cfg m'

/-- R69, R103, R104: the spec's FRAME, at any start time, acknowledge width and clock width, with bounds
that tell 27 µs from 70 µs: it decodes to its two integral bytes when the checksum byte is their sum,
whatever the decimal bytes sent, and is ErrCrc otherwise. -/
def Obligations.FrameDecodes : Prop :=
  ∀ (cfg : Params) (hi hd ti td c : Byte) (a t : Nat), 8 ≤ cfg.tsWidth →
    27 ≤ cfg.bit0MaxUs → cfg.bit0MaxUs < 70 → 70 ≤ cfg.bit1MaxUs →
    let m := memoryOf (linesEdges cfg.tsWidth (pseudoFrame hi hd ti td c a t).1)
    (c = hi + ti → decodeFn cfg m =
      .ok (.ok { humInt := hi, humDec := 0, tmpInt := ti, tmpDec := 0, crc := c })) ∧
    (c ≠ hi + ti → decodeFn cfg m = .ok (.fail .errCrc))

/-! ### The ports -/

/-- R65: the reading port carries the five bytes in wire order while `data_valid` is 1, and, the model's
choice of log entry 19, no value while it is 0. -/
def Obligations.ReadingPortPacking : Prop :=
  ∀ (b : Block),
    (b.dataValid = true →
      ∃ v : BitVec 40, b.readingPort = (true, some v) ∧
        v.extractLsb 39 32 = b.reading.humInt ∧ v.extractLsb 31 24 = b.reading.humDec ∧
        v.extractLsb 23 16 = b.reading.tmpInt ∧ v.extractLsb 15 8 = b.reading.tmpDec ∧
        v.extractLsb 7 0 = b.reading.crc) ∧
    (b.dataValid = false → b.readingPort = (false, none))

/-- R62, R63, R64: each status's code and name, the name of code 7, which is no status's code, and that no
two names are the same. -/
def Obligations.StatusCodesAndNames : Prop :=
  (∀ x ∈ ([(.ok, 0, "OK"), (.noData, 1, "NO_DATA"), (.busy, 2, "BUSY"), (.dataReady, 3, "DATA_READY"),
      (.errTimeout, 4, "ERR_TIMEOUT"), (.errSequenceInvalid, 5, "ERR_SEQUENCE_INVALID"),
      (.errCrc, 6, "ERR_CRC")] : List (Status × BitVec 3 × String)),
    statusCode x.1 = x.2.1 ∧ statusName x.2.1 = x.2.2) ∧
  statusName 7 = "UNKNOWN" ∧ (∀ a : Status, statusCode a ≠ 7) ∧
  (∀ a b : BitVec 3, statusName a = statusName b → a = b)

/-- R26: the 8-bit view of the cursor. -/
def Obligations.CountView : Prop :=
  (∀ c : Count, Count.ofView c.view = some c) ∧ Count.view .sentinel = 0xFF#8 ∧
  (∀ n : Fin 85, (Count.view (.val n)).toNat = n.val) ∧
  (∀ v : Byte, 85 ≤ v.toNat → v.toNat ≤ 254 → Count.ofView v = none)

/-! ### The whole machine -/

/-- R123 (values of reset), with the choices of log entries 3, 4 and 6: the invariant holds after reset, for
every choice of the parameters and every number of instances. -/
def Obligations.InvAtReset : Prop :=
  State.reset.Inv ∧ ∀ (cfg : Params) (n : Nat), cfg.wf = true → 1 ≤ n → (State.resetWith cfg n).Inv

/-- R123 (S2): what reset leaves, and that the first CHECK_STATUS answers NoData. Of `arm_ts` and the reading,
which the spec calls unwritten there, nothing is said: log entry 6. -/
def Obligations.ResetState : Prop :=
  ∀ (cfg : Params) (n k : Nat), k < n →
    ∃ d, (State.resetWith cfg n).devices[k]? = some d ∧
      (∀ i, d.blk.tl.get? i = none) ∧ d.blk.count = .sentinel ∧ d.blk.armed = false ∧
      d.blk.completePending = false ∧ d.blk.dataValid = false ∧ d.blk.phase = .idle ∧ d.blk.cur = .none ∧
      d.blk.lineDir = .input ∧ d.blk.lineDrv = .high ∧
      ∀ dt, step { State.resetWith cfg n with
          script := [{ dev := k, dt := dt, act := .port (.cmd 2) }] } =
        .next { State.resetWith cfg n with
          devices := (State.resetWith cfg n).devices.set k
            { d with tau := d.tau + dt, responses := [.noData] }
          sel := k }

/-- R38 and the rules of log entry 11: every step keeps the invariant. -/
def Obligations.StepKeepsInv : Prop :=
  ∀ s t : State, s.Inv → step s = .next t → t.Inv

/-- R40: no step from a state that meets the invariant reads an unwritten slot or forms an index outside
the timeline. -/
def Obligations.InvNeverFaults : Prop :=
  ∀ (s : State) (f : Fault), s.Inv → step s ≠ .fault f

/-- R16, R17, R124: no step changes a parameter or the number of instances. -/
def Obligations.ParametersFixed : Prop :=
  ∀ s t : State, step s = .next t → t.cfg = s.cfg ∧ t.devices.length = s.devices.length

/-- R56, R120: a step leaves every other instance alone, and what it does to its own depends on no other, the
free bytes of a failed decode being the same draws of both machines (log entry 5). -/
def Obligations.InstancesIndependent : Prop :=
  (∀ (s t : State) (ev : Event) (j : Nat), step s = .next t → s.script.head? = some ev → j ≠ ev.dev →
    t.devices[j]? = s.devices[j]?) ∧
  (∀ (s s' t : State) (ev : Event), s.cfg = s'.cfg → s.script = s'.script →
    s.script.head? = some ev → s.devices[ev.dev]? = s'.devices[ev.dev]? → step s = .next t →
    ∃ t', step s' = .next t' ∧ t'.devices[ev.dev]? = t.devices[ev.dev]?)

/-- R117: the clock an instance sees never goes back, and moves only in its own steps. -/
def Obligations.ClockAdvances : Prop :=
  ∀ (s t : State) (ev : Event) (d d' : Device), StepsTo s t ev d d' → d'.tau = d.tau + ev.dt

/-- R61, R90: CHECK_STATUS, ABORT_READ and GET_DATA respond once in their one step; any other step responds
once exactly if it ends a START_READ or READ in progress; and after every response the phase is IDLE. -/
def Obligations.OneResponsePerCommand : Prop :=
  ∀ (s t : State) (ev : Event) (d d' : Device), s.Inv → StepsTo s t ev d d' →
    (∃ st, d'.responses = d.responses ++ [st] ∧ d'.blk.phase = .idle ∧
      (d.blk.phase ≠ .idle ∨ Runs s ev .checkStatus ∨ Runs s ev .abortRead ∨ Runs s ev .getData)) ∨
    (d'.responses = d.responses ∧ (d'.blk.phase = .idle → d.blk.phase = .idle) ∧
      ¬ Runs s ev .checkStatus ∧ ¬ Runs s ev .abortRead ∧ ¬ Runs s ev .getData)

/-- R89: the engine never starts an attempt on its own, neither from IDLE nor by going back from a wait: every
entry into START_LOW is a START_READ or READ at IDLE, and nothing else leaves IDLE. -/
def Obligations.OnlyStartsLeaveIdle : Prop :=
  ∀ (s t : State) (ev : Event) (d d' : Device), StepsTo s t ev d d' →
    (d.blk.phase ≠ .startLow → d'.blk.phase = .startLow →
      d.blk.phase = .idle ∧ (Runs s ev .startRead ∨ Runs s ev .read)) ∧
    (d.blk.phase = .idle → d'.blk.phase ≠ .idle → d'.blk.phase = .startLow)

/-- R27: only START_READ and READ arm capture; only ABORT_READ and the acknowledge timeout disarm it. -/
def Obligations.ArmedWrittenBy : Prop :=
  ∀ (s t : State) (ev : Event) (d d' : Device), StepsTo s t ev d d' →
    (d.blk.armed = false → d'.blk.armed = true → Runs s ev .startRead ∨ Runs s ev .read) ∧
    (d.blk.armed = true → d'.blk.armed = false →
      Runs s ev .abortRead ∨ (ev.act = .poll ∧ d.blk.phase = .awaitAck ∧ d.blk.count = .val 0 ∧
        d'.responses = d.responses ++ [.errTimeout]))

/-- R29, R76: the latch is set only by the edge that takes `count` from 83 to 84, and cleared only by
START_READ, READ or READ's completion wait. -/
def Obligations.LatchWrittenBy : Prop :=
  ∀ (s t : State) (ev : Event) (d d' : Device), StepsTo s t ev d d' →
    (d.blk.completePending = false → d'.blk.completePending = true →
      RunsEdge s ev ∧ d.blk.count = .val 83 ∧ d'.blk.count = .val 84) ∧
    (RunsEdge s ev → d.blk.count = .val 83 → d'.blk.count = .val 84 →
      d'.blk.completePending = true) ∧
    (d.blk.completePending = true → d'.blk.completePending = false →
      Runs s ev .startRead ∨ Runs s ev .read ∨ (ev.act = .wake ∧ d.blk.phase = .waitComplete))

/-- R35: the capture path writes only the slot at the cursor, the cursor and the latch; every other step
writes no slot at all, and the cursor only to SENTINEL or to 0. -/
def Obligations.WhoWritesTheTimeline : Prop :=
  ∀ (s t : State) (ev : Event) (d d' : Device), StepsTo s t ev d d' →
    (RunsEdge s ev →
      d'.blk = { d.blk with
        tl := d'.blk.tl, count := d'.blk.count, completePending := d'.blk.completePending } ∧
      (∀ k, (∀ c, d.blk.count = .val c → k ≠ c.val) → d'.blk.tl.get? k = d.blk.tl.get? k)) ∧
    (¬ RunsEdge s ev →
      d'.blk.tl = d.blk.tl ∧
      (d'.blk.count = d.blk.count ∨ d'.blk.count = .sentinel ∨ d'.blk.count = .val 0))

/-- R47: a slot below the cursor is not rewritten by any step, so a complete timeline is frozen. -/
def Obligations.CapturedSlotsKept : Prop :=
  ∀ (s t : State) (ev : Event) (d d' : Device) (c : Fin 85), StepsTo s t ev d d' →
    d.blk.count = .val c → ∀ k, k < c.val → d'.blk.tl.get? k = d.blk.tl.get? k

/-- R38 item 4: a complete timeline and its cursor stay as they are until the next START_READ, READ or
ABORT_READ. -/
def Obligations.CompleteTimelineFrozen : Prop :=
  ∀ (s t : State) (ev : Event) (d d' : Device), s.Inv → StepsTo s t ev d d' →
    d.blk.count = .val 84 →
    ¬ Runs s ev .startRead → ¬ Runs s ev .read → ¬ Runs s ev .abortRead →
    d'.blk.tl = d.blk.tl ∧ d'.blk.count = .val 84

/-- R85 (corner case): CHECK_STATUS never sees `count = 0`: wherever the port accepts a command, the
cursor is SENTINEL or at least 1. -/
def Obligations.IdleNeverAtZero : Prop :=
  ∀ (s t : State) (ev : Event) (d d' : Device), s.Inv → StepsTo s t ev d d' →
    d'.blk.phase = .idle → d'.blk.count ≠ .val 0

/-- R34, R66, R86: the line outputs are written only by the two steps that begin START_READ and READ; the
interrupt enable goes up only with START_READ and READ, and down only with ABORT_READ and the acknowledge
timeout. -/
def Obligations.LineWrittenBy : Prop :=
  ∀ (s t : State) (ev : Event) (d d' : Device), StepsTo s t ev d d' →
    (d'.blk.lineOutputs.lineDir ≠ d.blk.lineOutputs.lineDir ∨
        d'.blk.lineOutputs.lineDrv ≠ d.blk.lineOutputs.lineDrv →
      Runs s ev .startRead ∨ Runs s ev .read ∨ (ev.act = .release ∧ d.blk.phase = .startLow)) ∧
    (d.blk.lineOutputs.irqEn = false → d'.blk.lineOutputs.irqEn = true →
      Runs s ev .startRead ∨ Runs s ev .read) ∧
    (d.blk.lineOutputs.irqEn = true → d'.blk.lineOutputs.irqEn = false →
      Runs s ev .abortRead ∨ (ev.act = .poll ∧ d.blk.phase = .awaitAck ∧ d.blk.count = .val 0))

/-- R30, R31, R32: the reading is written only by a decode, GET_DATA's or READ's; `data_valid` rises only
with an OK response, and then the decimal bytes are 0. -/
def Obligations.ReadingWrittenBy : Prop :=
  ∀ (s t : State) (ev : Event) (d d' : Device), StepsTo s t ev d d' →
    (d'.blk.reading ≠ d.blk.reading →
      d.blk.count = .val 84 ∧ (Runs s ev .getData ∨ ev.act = .wake)) ∧
    (d.blk.dataValid = false → d'.blk.dataValid = true →
      d'.responses = d.responses ++ [.ok] ∧
      d'.blk.reading.humDec = 0 ∧ d'.blk.reading.tmpDec = 0)

/-- R28, R30, R82, U4: `arm_ts` is written only by the release step, with `now()`, and that step is the only
one that brings `count` to 0; and what `arm_ts` holds while `count` is SENTINEL, or the reading while
`data_valid` is 0, so what they hold at reset (log entry 6), is never seen: no step does anything else for it. -/
def Obligations.ArmTsWrittenBy : Prop :=
  ∀ (s t : State) (ev : Event) (d d' : Device), StepsTo s t ev d d' →
    (d'.blk.armTs ≠ d.blk.armTs → ev.act = .release ∧ d.blk.phase = .startLow) ∧
    (d.blk.count ≠ .val 0 → d'.blk.count = .val 0 → ev.act = .release ∧ d.blk.phase = .startLow) ∧
    (ev.act = .release → d.blk.phase = .startLow →
      d'.blk.armTs = d'.tau % 2 ^ s.cfg.tsWidth ∧ d'.blk.count = .val 0) ∧
    ∀ (u : State) (e : Device), u.cfg = s.cfg → u.script = s.script → u.devices[ev.dev]? = some e →
      SameButUnseen d e → ∃ v e', StepsTo u v ev e e' ∧ SameButUnseen d' e'

/-- R37, R66: the source's four states as views, the line-control bits, and that an instance that meets the
invariant is always in one of the four. -/
def Obligations.ViewsAndLineOutputs : Prop :=
  (∀ b : Block,
    (b.viewIdle = true ↔ b.count = .sentinel ∧ b.phase = .idle) ∧
    (b.viewAwaitAck = true ↔ b.phase = .startLow ∨ b.phase = .awaitAck) ∧
    (b.viewCapturing = true ↔
      (∃ n : Fin 85, b.count = .val n ∧ 1 ≤ n.val ∧ n.val ≤ 83) ∧
        (b.phase = .idle ∨ b.phase = .waitComplete)) ∧
    (b.viewComplete = true ↔ b.count = .val 84) ∧
    (b.lineOutputs.lineDir = true ↔ b.lineDir = .output) ∧
    (b.lineOutputs.lineDrv = true ↔ b.lineDrv = .high) ∧
    b.lineOutputs.irqEn = b.armed) ∧
  ∀ (cfg : Params) (d : Device), d.Inv cfg →
    d.blk.viewIdle = true ∨ d.blk.viewAwaitAck = true ∨ d.blk.viewCapturing = true ∨
      d.blk.viewComplete = true
end

