-- ==== Sys2Proof/Laws/State.lean ====
section
/-! SUPPORT. Laws/State.lean: one lemma per field per update, so that no proof unfolds a record update. -/

namespace Sys2Proof.Machine

/-! ### Block.configureLineOutput -/

@[simp] theorem Block.configureLineOutput_tl (b : Block) :
    (Block.configureLineOutput b).tl = b.tl := rfl

@[simp] theorem Block.configureLineOutput_count (b : Block) :
    (Block.configureLineOutput b).count = b.count := rfl

@[simp] theorem Block.configureLineOutput_armed (b : Block) :
    (Block.configureLineOutput b).armed = b.armed := rfl

@[simp] theorem Block.configureLineOutput_armTs (b : Block) :
    (Block.configureLineOutput b).armTs = b.armTs := rfl

@[simp] theorem Block.configureLineOutput_completePending (b : Block) :
    (Block.configureLineOutput b).completePending = b.completePending := rfl

@[simp] theorem Block.configureLineOutput_reading (b : Block) :
    (Block.configureLineOutput b).reading = b.reading := rfl

@[simp] theorem Block.configureLineOutput_dataValid (b : Block) :
    (Block.configureLineOutput b).dataValid = b.dataValid := rfl

@[simp] theorem Block.configureLineOutput_phase (b : Block) :
    (Block.configureLineOutput b).phase = b.phase := rfl

@[simp] theorem Block.configureLineOutput_cur (b : Block) :
    (Block.configureLineOutput b).cur = b.cur := rfl

@[simp] theorem Block.configureLineOutput_lineDir (b : Block) :
    (Block.configureLineOutput b).lineDir = .output := rfl

@[simp] theorem Block.configureLineOutput_lineDrv (b : Block) :
    (Block.configureLineOutput b).lineDrv = b.lineDrv := rfl

/-! ### Block.configureLineInput -/

@[simp] theorem Block.configureLineInput_tl (b : Block) :
    (Block.configureLineInput b).tl = b.tl := rfl

@[simp] theorem Block.configureLineInput_count (b : Block) :
    (Block.configureLineInput b).count = b.count := rfl

@[simp] theorem Block.configureLineInput_armed (b : Block) :
    (Block.configureLineInput b).armed = b.armed := rfl

@[simp] theorem Block.configureLineInput_armTs (b : Block) :
    (Block.configureLineInput b).armTs = b.armTs := rfl

@[simp] theorem Block.configureLineInput_completePending (b : Block) :
    (Block.configureLineInput b).completePending = b.completePending := rfl

@[simp] theorem Block.configureLineInput_reading (b : Block) :
    (Block.configureLineInput b).reading = b.reading := rfl

@[simp] theorem Block.configureLineInput_dataValid (b : Block) :
    (Block.configureLineInput b).dataValid = b.dataValid := rfl

@[simp] theorem Block.configureLineInput_phase (b : Block) :
    (Block.configureLineInput b).phase = b.phase := rfl

@[simp] theorem Block.configureLineInput_cur (b : Block) :
    (Block.configureLineInput b).cur = b.cur := rfl

@[simp] theorem Block.configureLineInput_lineDir (b : Block) :
    (Block.configureLineInput b).lineDir = .input := rfl

@[simp] theorem Block.configureLineInput_lineDrv (b : Block) :
    (Block.configureLineInput b).lineDrv = b.lineDrv := rfl

/-! ### Block.enableLineInterrupt -/

@[simp] theorem Block.enableLineInterrupt_tl (b : Block) :
    (Block.enableLineInterrupt b).tl = b.tl := rfl

@[simp] theorem Block.enableLineInterrupt_count (b : Block) :
    (Block.enableLineInterrupt b).count = b.count := rfl

@[simp] theorem Block.enableLineInterrupt_armed (b : Block) :
    (Block.enableLineInterrupt b).armed = true := rfl

@[simp] theorem Block.enableLineInterrupt_armTs (b : Block) :
    (Block.enableLineInterrupt b).armTs = b.armTs := rfl

@[simp] theorem Block.enableLineInterrupt_completePending (b : Block) :
    (Block.enableLineInterrupt b).completePending = b.completePending := rfl

@[simp] theorem Block.enableLineInterrupt_reading (b : Block) :
    (Block.enableLineInterrupt b).reading = b.reading := rfl

@[simp] theorem Block.enableLineInterrupt_dataValid (b : Block) :
    (Block.enableLineInterrupt b).dataValid = b.dataValid := rfl

@[simp] theorem Block.enableLineInterrupt_phase (b : Block) :
    (Block.enableLineInterrupt b).phase = b.phase := rfl

@[simp] theorem Block.enableLineInterrupt_cur (b : Block) :
    (Block.enableLineInterrupt b).cur = b.cur := rfl

@[simp] theorem Block.enableLineInterrupt_lineDir (b : Block) :
    (Block.enableLineInterrupt b).lineDir = b.lineDir := rfl

@[simp] theorem Block.enableLineInterrupt_lineDrv (b : Block) :
    (Block.enableLineInterrupt b).lineDrv = b.lineDrv := rfl

/-! ### Block.disableLineInterrupt -/

@[simp] theorem Block.disableLineInterrupt_tl (b : Block) :
    (Block.disableLineInterrupt b).tl = b.tl := rfl

@[simp] theorem Block.disableLineInterrupt_count (b : Block) :
    (Block.disableLineInterrupt b).count = b.count := rfl

@[simp] theorem Block.disableLineInterrupt_armed (b : Block) :
    (Block.disableLineInterrupt b).armed = false := rfl

@[simp] theorem Block.disableLineInterrupt_armTs (b : Block) :
    (Block.disableLineInterrupt b).armTs = b.armTs := rfl

@[simp] theorem Block.disableLineInterrupt_completePending (b : Block) :
    (Block.disableLineInterrupt b).completePending = b.completePending := rfl

@[simp] theorem Block.disableLineInterrupt_reading (b : Block) :
    (Block.disableLineInterrupt b).reading = b.reading := rfl

@[simp] theorem Block.disableLineInterrupt_dataValid (b : Block) :
    (Block.disableLineInterrupt b).dataValid = b.dataValid := rfl

@[simp] theorem Block.disableLineInterrupt_phase (b : Block) :
    (Block.disableLineInterrupt b).phase = b.phase := rfl

@[simp] theorem Block.disableLineInterrupt_cur (b : Block) :
    (Block.disableLineInterrupt b).cur = b.cur := rfl

@[simp] theorem Block.disableLineInterrupt_lineDir (b : Block) :
    (Block.disableLineInterrupt b).lineDir = b.lineDir := rfl

@[simp] theorem Block.disableLineInterrupt_lineDrv (b : Block) :
    (Block.disableLineInterrupt b).lineDrv = b.lineDrv := rfl

/-! ### Block.setLineHigh -/

@[simp] theorem Block.setLineHigh_tl (b : Block) :
    (Block.setLineHigh b).tl = b.tl := rfl

@[simp] theorem Block.setLineHigh_count (b : Block) :
    (Block.setLineHigh b).count = b.count := rfl

@[simp] theorem Block.setLineHigh_armed (b : Block) :
    (Block.setLineHigh b).armed = b.armed := rfl

@[simp] theorem Block.setLineHigh_armTs (b : Block) :
    (Block.setLineHigh b).armTs = b.armTs := rfl

@[simp] theorem Block.setLineHigh_completePending (b : Block) :
    (Block.setLineHigh b).completePending = b.completePending := rfl

@[simp] theorem Block.setLineHigh_reading (b : Block) :
    (Block.setLineHigh b).reading = b.reading := rfl

@[simp] theorem Block.setLineHigh_dataValid (b : Block) :
    (Block.setLineHigh b).dataValid = b.dataValid := rfl

@[simp] theorem Block.setLineHigh_phase (b : Block) :
    (Block.setLineHigh b).phase = b.phase := rfl

@[simp] theorem Block.setLineHigh_cur (b : Block) :
    (Block.setLineHigh b).cur = b.cur := rfl

@[simp] theorem Block.setLineHigh_lineDir (b : Block) :
    (Block.setLineHigh b).lineDir = b.lineDir := rfl

@[simp] theorem Block.setLineHigh_lineDrv (b : Block) :
    (Block.setLineHigh b).lineDrv = .high := rfl

/-! ### Block.setLineLow -/

@[simp] theorem Block.setLineLow_tl (b : Block) :
    (Block.setLineLow b).tl = b.tl := rfl

@[simp] theorem Block.setLineLow_count (b : Block) :
    (Block.setLineLow b).count = b.count := rfl

@[simp] theorem Block.setLineLow_armed (b : Block) :
    (Block.setLineLow b).armed = b.armed := rfl

@[simp] theorem Block.setLineLow_armTs (b : Block) :
    (Block.setLineLow b).armTs = b.armTs := rfl

@[simp] theorem Block.setLineLow_completePending (b : Block) :
    (Block.setLineLow b).completePending = b.completePending := rfl

@[simp] theorem Block.setLineLow_reading (b : Block) :
    (Block.setLineLow b).reading = b.reading := rfl

@[simp] theorem Block.setLineLow_dataValid (b : Block) :
    (Block.setLineLow b).dataValid = b.dataValid := rfl

@[simp] theorem Block.setLineLow_phase (b : Block) :
    (Block.setLineLow b).phase = b.phase := rfl

@[simp] theorem Block.setLineLow_cur (b : Block) :
    (Block.setLineLow b).cur = b.cur := rfl

@[simp] theorem Block.setLineLow_lineDir (b : Block) :
    (Block.setLineLow b).lineDir = b.lineDir := rfl

@[simp] theorem Block.setLineLow_lineDrv (b : Block) :
    (Block.setLineLow b).lineDrv = .low := rfl

/-! ### Block.notify -/

@[simp] theorem Block.notify_tl (b : Block) :
    (Block.notify b).tl = b.tl := rfl

@[simp] theorem Block.notify_count (b : Block) :
    (Block.notify b).count = b.count := rfl

@[simp] theorem Block.notify_armed (b : Block) :
    (Block.notify b).armed = b.armed := rfl

@[simp] theorem Block.notify_armTs (b : Block) :
    (Block.notify b).armTs = b.armTs := rfl

@[simp] theorem Block.notify_completePending (b : Block) :
    (Block.notify b).completePending = true := rfl

@[simp] theorem Block.notify_reading (b : Block) :
    (Block.notify b).reading = b.reading := rfl

@[simp] theorem Block.notify_dataValid (b : Block) :
    (Block.notify b).dataValid = b.dataValid := rfl

@[simp] theorem Block.notify_phase (b : Block) :
    (Block.notify b).phase = b.phase := rfl

@[simp] theorem Block.notify_cur (b : Block) :
    (Block.notify b).cur = b.cur := rfl

@[simp] theorem Block.notify_lineDir (b : Block) :
    (Block.notify b).lineDir = b.lineDir := rfl

@[simp] theorem Block.notify_lineDrv (b : Block) :
    (Block.notify b).lineDrv = b.lineDrv := rfl

/-! ### Block.consume -/

@[simp] theorem Block.consume_tl (b : Block) :
    (Block.consume b).tl = b.tl := rfl

@[simp] theorem Block.consume_count (b : Block) :
    (Block.consume b).count = b.count := rfl

@[simp] theorem Block.consume_armed (b : Block) :
    (Block.consume b).armed = b.armed := rfl

@[simp] theorem Block.consume_armTs (b : Block) :
    (Block.consume b).armTs = b.armTs := rfl

@[simp] theorem Block.consume_completePending (b : Block) :
    (Block.consume b).completePending = false := rfl

@[simp] theorem Block.consume_reading (b : Block) :
    (Block.consume b).reading = b.reading := rfl

@[simp] theorem Block.consume_dataValid (b : Block) :
    (Block.consume b).dataValid = b.dataValid := rfl

@[simp] theorem Block.consume_phase (b : Block) :
    (Block.consume b).phase = b.phase := rfl

@[simp] theorem Block.consume_cur (b : Block) :
    (Block.consume b).cur = b.cur := rfl

@[simp] theorem Block.consume_lineDir (b : Block) :
    (Block.consume b).lineDir = b.lineDir := rfl

@[simp] theorem Block.consume_lineDrv (b : Block) :
    (Block.consume b).lineDrv = b.lineDrv := rfl

/-! ### Block.abort -/

@[simp] theorem Block.abort_tl (b : Block) :
    (Block.abort b).tl = b.tl := rfl

@[simp] theorem Block.abort_count (b : Block) :
    (Block.abort b).count = .sentinel := rfl

@[simp] theorem Block.abort_armed (b : Block) :
    (Block.abort b).armed = false := rfl

@[simp] theorem Block.abort_armTs (b : Block) :
    (Block.abort b).armTs = b.armTs := rfl

@[simp] theorem Block.abort_completePending (b : Block) :
    (Block.abort b).completePending = b.completePending := rfl

@[simp] theorem Block.abort_reading (b : Block) :
    (Block.abort b).reading = b.reading := rfl

@[simp] theorem Block.abort_dataValid (b : Block) :
    (Block.abort b).dataValid = b.dataValid := rfl

@[simp] theorem Block.abort_phase (b : Block) :
    (Block.abort b).phase = b.phase := rfl

@[simp] theorem Block.abort_cur (b : Block) :
    (Block.abort b).cur = b.cur := rfl

@[simp] theorem Block.abort_lineDir (b : Block) :
    (Block.abort b).lineDir = b.lineDir := rfl

@[simp] theorem Block.abort_lineDrv (b : Block) :
    (Block.abort b).lineDrv = b.lineDrv := rfl

/-! ### Block.enter -/

@[simp] theorem Block.enter_tl (b : Block) (p : Phase) (c : Cur) :
    (Block.enter p c b).tl = b.tl := rfl

@[simp] theorem Block.enter_count (b : Block) (p : Phase) (c : Cur) :
    (Block.enter p c b).count = b.count := rfl

@[simp] theorem Block.enter_armed (b : Block) (p : Phase) (c : Cur) :
    (Block.enter p c b).armed = b.armed := rfl

@[simp] theorem Block.enter_armTs (b : Block) (p : Phase) (c : Cur) :
    (Block.enter p c b).armTs = b.armTs := rfl

@[simp] theorem Block.enter_completePending (b : Block) (p : Phase) (c : Cur) :
    (Block.enter p c b).completePending = b.completePending := rfl

@[simp] theorem Block.enter_reading (b : Block) (p : Phase) (c : Cur) :
    (Block.enter p c b).reading = b.reading := rfl

@[simp] theorem Block.enter_dataValid (b : Block) (p : Phase) (c : Cur) :
    (Block.enter p c b).dataValid = b.dataValid := rfl

@[simp] theorem Block.enter_phase (b : Block) (p : Phase) (c : Cur) :
    (Block.enter p c b).phase = p := rfl

@[simp] theorem Block.enter_cur (b : Block) (p : Phase) (c : Cur) :
    (Block.enter p c b).cur = c := rfl

@[simp] theorem Block.enter_lineDir (b : Block) (p : Phase) (c : Cur) :
    (Block.enter p c b).lineDir = b.lineDir := rfl

@[simp] theorem Block.enter_lineDrv (b : Block) (p : Phase) (c : Cur) :
    (Block.enter p c b).lineDrv = b.lineDrv := rfl

/-! ### Device.advance -/

@[simp] theorem Device.advance_blk (d : Device) (dt : Nat) :
    (Device.advance dt d).blk = d.blk := rfl

@[simp] theorem Device.advance_tau (d : Device) (dt : Nat) :
    (Device.advance dt d).tau = d.tau + dt := rfl

@[simp] theorem Device.advance_responses (d : Device) (dt : Nat) :
    (Device.advance dt d).responses = d.responses := rfl

@[simp] theorem Device.advance_sleep (d : Device) (dt : Nat) :
    (Device.advance dt d).sleep = d.sleep := rfl

@[simp] theorem Device.advance_draws (d : Device) (dt : Nat) :
    (Device.advance dt d).draws = d.draws := rfl

/-! ### Device.mapBlk -/

@[simp] theorem Device.mapBlk_blk (d : Device) (f : Block → Block) :
    (Device.mapBlk f d).blk = f d.blk := rfl

@[simp] theorem Device.mapBlk_tau (d : Device) (f : Block → Block) :
    (Device.mapBlk f d).tau = d.tau := rfl

@[simp] theorem Device.mapBlk_responses (d : Device) (f : Block → Block) :
    (Device.mapBlk f d).responses = d.responses := rfl

@[simp] theorem Device.mapBlk_sleep (d : Device) (f : Block → Block) :
    (Device.mapBlk f d).sleep = d.sleep := rfl

@[simp] theorem Device.mapBlk_draws (d : Device) (f : Block → Block) :
    (Device.mapBlk f d).draws = d.draws := rfl

/-! ### Device.respond -/

@[simp] theorem Device.respond_blk (d : Device) (st : Status) :
    (Device.respond st d).blk = d.blk := rfl

@[simp] theorem Device.respond_tau (d : Device) (st : Status) :
    (Device.respond st d).tau = d.tau := rfl

@[simp] theorem Device.respond_responses (d : Device) (st : Status) :
    (Device.respond st d).responses = d.responses ++ [st] := rfl

@[simp] theorem Device.respond_sleep (d : Device) (st : Status) :
    (Device.respond st d).sleep = d.sleep := rfl

@[simp] theorem Device.respond_draws (d : Device) (st : Status) :
    (Device.respond st d).draws = d.draws := rfl

/-! ### Device.finish -/

@[simp] theorem Device.finish_blk (d : Device) (st : Status) :
    (Device.finish st d).blk = d.blk.enter .idle .none := rfl

@[simp] theorem Device.finish_tau (d : Device) (st : Status) :
    (Device.finish st d).tau = d.tau := rfl

@[simp] theorem Device.finish_responses (d : Device) (st : Status) :
    (Device.finish st d).responses = d.responses ++ [st] := rfl

@[simp] theorem Device.finish_sleep (d : Device) (st : Status) :
    (Device.finish st d).sleep = d.sleep := rfl

@[simp] theorem Device.finish_draws (d : Device) (st : Status) :
    (Device.finish st d).draws = d.draws := rfl

/-! ### Device.beginSleep -/

@[simp] theorem Device.beginSleep_blk (d : Device) (cfg : Params) :
    (Device.beginSleep cfg d).blk = d.blk := rfl

@[simp] theorem Device.beginSleep_tau (d : Device) (cfg : Params) :
    (Device.beginSleep cfg d).tau = d.tau := rfl

@[simp] theorem Device.beginSleep_responses (d : Device) (cfg : Params) :
    (Device.beginSleep cfg d).responses = d.responses := rfl

@[simp] theorem Device.beginSleep_sleep (d : Device) (cfg : Params) :
    (Device.beginSleep cfg d).sleep = some ⟨d.tau, cfg.tStartMinMs, cfg.tStartMaxMs⟩ := rfl

@[simp] theorem Device.beginSleep_draws (d : Device) (cfg : Params) :
    (Device.beginSleep cfg d).draws = d.draws := rfl

/-! ### Device.endSleep -/

@[simp] theorem Device.endSleep_blk (d : Device) :
    (Device.endSleep d).blk = d.blk := rfl

@[simp] theorem Device.endSleep_tau (d : Device) :
    (Device.endSleep d).tau = d.tau := rfl

@[simp] theorem Device.endSleep_responses (d : Device) :
    (Device.endSleep d).responses = d.responses := rfl

@[simp] theorem Device.endSleep_sleep (d : Device) :
    (Device.endSleep d).sleep = none := rfl

@[simp] theorem Device.endSleep_draws (d : Device) :
    (Device.endSleep d).draws = d.draws := rfl

/-! ### Device.forgetReading -/

@[simp] theorem Device.forgetReading_tau (d : Device) (k : Nat) :
    (d.forgetReading k).tau = d.tau := rfl

@[simp] theorem Device.forgetReading_responses (d : Device) (k : Nat) :
    (d.forgetReading k).responses = d.responses := rfl

@[simp] theorem Device.forgetReading_sleep (d : Device) (k : Nat) :
    (d.forgetReading k).sleep = d.sleep := rfl

@[simp] theorem Device.forgetReading_draws (d : Device) (k : Nat) :
    (d.forgetReading k).draws = d.draws + 5 := rfl

@[simp] theorem Device.forgetReading_blk_tl (d : Device) (k : Nat) :
    (d.forgetReading k).blk.tl = d.blk.tl := rfl

@[simp] theorem Device.forgetReading_blk_count (d : Device) (k : Nat) :
    (d.forgetReading k).blk.count = d.blk.count := rfl

@[simp] theorem Device.forgetReading_blk_armed (d : Device) (k : Nat) :
    (d.forgetReading k).blk.armed = d.blk.armed := rfl

@[simp] theorem Device.forgetReading_blk_armTs (d : Device) (k : Nat) :
    (d.forgetReading k).blk.armTs = d.blk.armTs := rfl

@[simp] theorem Device.forgetReading_blk_completePending (d : Device) (k : Nat) :
    (d.forgetReading k).blk.completePending = d.blk.completePending := rfl

@[simp] theorem Device.forgetReading_blk_dataValid (d : Device) (k : Nat) :
    (d.forgetReading k).blk.dataValid = false := rfl

@[simp] theorem Device.forgetReading_blk_phase (d : Device) (k : Nat) :
    (d.forgetReading k).blk.phase = d.blk.phase := rfl

@[simp] theorem Device.forgetReading_blk_cur (d : Device) (k : Nat) :
    (d.forgetReading k).blk.cur = d.blk.cur := rfl

@[simp] theorem Device.forgetReading_blk_lineDir (d : Device) (k : Nat) :
    (d.forgetReading k).blk.lineDir = d.blk.lineDir := rfl

@[simp] theorem Device.forgetReading_blk_lineDrv (d : Device) (k : Nat) :
    (d.forgetReading k).blk.lineDrv = d.blk.lineDrv := rfl

/-! ### State.putDev -/

@[simp] theorem State.putDev_cfg (s : State) (d : Device) :
    (s.putDev d).cfg = s.cfg := rfl

@[simp] theorem State.putDev_devices (s : State) (d : Device) :
    (s.putDev d).devices = s.devices.set s.sel d := rfl

@[simp] theorem State.putDev_sel (s : State) (d : Device) :
    (s.putDev d).sel = s.sel := rfl

@[simp] theorem State.putDev_script (s : State) (d : Device) :
    (s.putDev d).script = s.script := rfl

/-! ### State.begin -/

@[simp] theorem State.begin_cfg (s : State) (ev : Event) (rest : List Event) :
    (s.begin ev rest).cfg = s.cfg := rfl

@[simp] theorem State.begin_devices (s : State) (ev : Event) (rest : List Event) :
    (s.begin ev rest).devices = s.devices.modify ev.dev (Device.advance ev.dt) := rfl

@[simp] theorem State.begin_sel (s : State) (ev : Event) (rest : List Event) :
    (s.begin ev rest).sel = ev.dev := rfl

@[simp] theorem State.begin_script (s : State) (ev : Event) (rest : List Event) :
    (s.begin ev rest).script = rest := rfl

end Sys2Proof.Machine
end

