-- ==== Sys2Proof/Laws/Ops.lean ====
section
/-! SUPPORT. Laws/Ops.lean: what the shared operations do, said once: the timeline as memory, and how a step
reaches its instance. -/

namespace Sys2Proof.Machine

@[simp] theorem Config.capacity_eq : Config.capacity = 84 := rfl

/-! ### The thresholds -/

theorem ackExpired_iff {cfg : Params} {n t : Nat} :
    ackExpired cfg n t = true ↔ cfg.ackTimeoutUs < subW cfg.tsWidth n t := decide_eq_true_iff

theorem ackExpired_eq_false_iff {cfg : Params} {n t : Nat} :
    ackExpired cfg n t = false ↔ subW cfg.tsWidth n t ≤ cfg.ackTimeoutUs := by
  rw [ackExpired, decide_eq_false_iff_not, Nat.not_lt]

theorem edgeExpired_iff {cfg : Params} {n ref : Nat} :
    edgeExpired cfg n ref = true ↔ cfg.edgeTimeoutUs < subW cfg.tsWidth n ref := decide_eq_true_iff

theorem edgeExpired_eq_false_iff {cfg : Params} {n ref : Nat} :
    edgeExpired cfg n ref = false ↔ subW cfg.tsWidth n ref ≤ cfg.edgeTimeoutUs := by
  rw [edgeExpired, decide_eq_false_iff_not, Nat.not_lt]

theorem classify_tooLong_iff {cfg : Params} {d : Nat} :
    classify cfg d = .tooLong ↔ cfg.bit1MaxUs < d := by
  unfold classify; split
  · simp_all
  · split <;> simp_all

theorem classify_of_le {cfg : Params} {d : Nat} (h : d ≤ cfg.bit1MaxUs) :
    classify cfg d = .bit (decide (cfg.bit0MaxUs < d)) := by
  unfold classify
  rw [if_neg (Nat.not_lt.mpr h)]
  split <;> simp_all

/-! ### The timeline -/

theorem Memory.get?_set_same (m : Memory) (i : Nat) (e : Edge) : (m.set i e).get? i = some e := by
  induction m with
  | nil => simp [Memory.set, Memory.get?]
  | cons x m ih =>
    obtain ⟨a, y⟩ := x
    simp only [Memory.set]
    split
    · simp [Memory.get?]
    · split
      · simp [Memory.get?]
      · rename_i h; simp [Memory.get?, h, ih]

theorem Memory.get?_set_other (m : Memory) {i j : Nat} (e : Edge) (h : j ≠ i) :
    (m.set i e).get? j = m.get? j := by
  induction m with
  | nil => simp [Memory.set, Memory.get?, Ne.symm h]
  | cons x m ih =>
    obtain ⟨a, y⟩ := x
    simp only [Memory.set]
    split
    · simp [Memory.get?, Ne.symm h]
    · split
      · rename_i ha; subst ha; simp [Memory.get?, Ne.symm h]
      · simp [Memory.get?, ih]

theorem Memory.risesFrom_mono {lo lo' : Nat} {m : Memory} (h : lo' ≤ lo)
    (hm : m.risesFrom lo = true) : m.risesFrom lo' = true := by
  cases m with
  | nil => rfl
  | cons x m =>
    obtain ⟨a, y⟩ := x
    simp only [Memory.risesFrom, Bool.and_eq_true, decide_eq_true_eq] at hm ⊢
    exact ⟨⟨h.trans hm.1.1, hm.1.2⟩, hm.2⟩

theorem Memory.risesFrom_set {lo i : Nat} {m : Memory} (e : Edge) (hlo : lo ≤ i)
    (hi : i < Config.capacity) (hm : m.risesFrom lo = true) : (m.set i e).risesFrom lo = true := by
  induction m generalizing lo with
  | nil => simp [Memory.set, Memory.risesFrom, hlo, hi]
  | cons x m ih =>
    obtain ⟨a, y⟩ := x
    simp only [Memory.risesFrom, Bool.and_eq_true, decide_eq_true_eq] at hm
    simp only [Memory.set]
    split
    · rename_i hia
      simp only [Memory.risesFrom, Bool.and_eq_true, decide_eq_true_eq]
      exact ⟨⟨hlo, hi⟩, ⟨hia, hm.1.2⟩, hm.2⟩
    · split
      · rename_i hai; subst hai
        simp only [Memory.risesFrom, Bool.and_eq_true, decide_eq_true_eq]
        exact ⟨⟨hlo, hi⟩, hm.2⟩
      · simp only [Memory.risesFrom, Bool.and_eq_true, decide_eq_true_eq]
        exact ⟨hm.1, ih (by omega) hm.2⟩

/-- Every write keeps the canonical form. -/
theorem tlWrite_wf {m m' : Memory} {i : Nat} {e : Edge} (h : tlWrite m i e = .ok m')
    (hm : m.wf = true) : m'.wf = true := by
  unfold tlWrite at h
  split at h
  · rename_i hi; cases h; exact Memory.risesFrom_set e (Nat.zero_le i) hi hm
  · cases h

theorem tlWrite_of_lt (m : Memory) {i : Nat} (e : Edge) (h : i < Config.capacity) :
    tlWrite m i e = .ok (m.set i e) := if_pos h

theorem tlRead_of_get? {m : Memory} {i : Nat} {e : Edge} (hi : i < Config.capacity)
    (h : m.get? i = some e) : tlRead m i = .ok e := by
  simp only [tlRead, if_pos hi, h]

theorem tlRead_ok_iff {m : Memory} {i : Nat} {e : Edge} :
    tlRead m i = .ok e ↔ i < Config.capacity ∧ m.get? i = some e := by
  unfold tlRead
  split
  · rename_i hi; cases h : m.get? i <;> simp [hi]
  · rename_i hi; simp [hi]

/-! ### Reaching the instance -/

theorem onDevice_eq_of_dev {s : State} {d : Device} (h : s.dev? = some d)
    (f : Device → Except Fault Device) :
    onDevice s f = (match f d with | .ok d' => .next (s.putDev d') | .error e => .fault e) := by
  cases hf : f d <;> simp only [onDevice, h, hf]

theorem onDevice_next_iff {s t : State} {f : Device → Except Fault Device} :
    onDevice s f = .next t ↔ ∃ d d', s.dev? = some d ∧ f d = .ok d' ∧ t = s.putDev d' := by
  unfold onDevice
  cases h : s.dev? with
  | none => simp
  | some d => cases hf : f d <;> simp [hf, eq_comm]

theorem onDevice_fault_iff {s : State} {f : Device → Except Fault Device} {e : Fault} :
    onDevice s f = .fault e ↔ ∃ d, s.dev? = some d ∧ f d = .error e := by
  unfold onDevice
  cases h : s.dev? with
  | none => simp
  | some d => cases hf : f d <;> simp [hf]

theorem accept_of_idle {s : State} {d : Device} (h : s.dev? = some d) (hp : d.blk.phase = .idle)
    (f : Device → Except Fault Device) : accept s f = onDevice s f := by
  simp only [accept, h, hp]

theorem accept_of_busy {s : State} {d : Device} (h : s.dev? = some d) (hp : d.blk.phase ≠ .idle)
    (f : Device → Except Fault Device) : accept s f = .refused .commandWhileBusy := by
  simp only [accept, h]
  cases hq : d.blk.phase <;> simp_all

theorem accept_next_iff {s t : State} {f : Device → Except Fault Device} :
    accept s f = .next t ↔
      ∃ d d', s.dev? = some d ∧ d.blk.phase = .idle ∧ f d = .ok d' ∧ t = s.putDev d' := by
  cases h : s.dev? with
  | none => simp [accept, h]
  | some d =>
    by_cases hp : d.blk.phase = .idle
    · rw [accept_of_idle h hp, onDevice_next_iff]; simp [h, hp]
    · rw [accept_of_busy h hp]; simp [hp]

theorem accept_fault_iff {s : State} {f : Device → Except Fault Device} {e : Fault} :
    accept s f = .fault e ↔ ∃ d, s.dev? = some d ∧ d.blk.phase = .idle ∧ f d = .error e := by
  cases h : s.dev? with
  | none => simp [accept, h]
  | some d =>
    by_cases hp : d.blk.phase = .idle
    · rw [accept_of_idle h hp, onDevice_fault_iff]; simp [h, hp]
    · rw [accept_of_busy h hp]; simp [hp]

/-- The instance a step uses, looked up after it was put back. -/
theorem State.dev?_putDev {s : State} {d d' : Device} (h : s.dev? = some d) :
    (s.putDev d').dev? = some d' := by
  obtain ⟨hlt, -⟩ := List.getElem?_eq_some_iff.mp h
  simp [State.dev?, hlt]

/-- Putting the instance back unchanged changes nothing. -/
theorem State.putDev_self {s : State} {d : Device} (h : s.dev? = some d) : s.putDev d = s := by
  obtain ⟨hlt, hd⟩ := List.getElem?_eq_some_iff.mp h
  subst hd
  simp [State.putDev]

/-- Putting one instance back leaves the others alone. -/
theorem State.putDev_other (s : State) (d : Device) {j : Nat} (h : j ≠ s.sel) :
    (s.putDev d).devices[j]? = s.devices[j]? := by
  simp [List.getElem?_set_ne (Ne.symm h)]

/-- The selected instance once its turn has begun is the one it was, its clock moved on. -/
theorem State.begin_dev? (s : State) (ev : Event) (rest : List Event) :
    (s.begin ev rest).dev? = s.devices[ev.dev]?.map (Device.advance ev.dt) := by
  simp [State.dev?]

end Sys2Proof.Machine
end

