-- ==== Sys2Proof/Laws/Capture.lean ====
section
/-! SUPPORT. Laws/Capture.lean: what recording an edge can do (R70 to R77). -/

namespace Sys2Proof.Machine

/-- The block after the atomic append of `e` at cursor `c` (R44). -/
def Block.appended (b : Block) (e : Edge) (c : Fin 85) (h : c.val < Config.capacity) : Block :=
  { b with
    tl := b.tl.set c.val e
    count := .val ⟨c.val + 1, Nat.succ_lt_succ h⟩
    completePending := b.completePending || decide (c.val + 1 = Config.capacity) }

theorem appendEdge_of_lt (e : Edge) {c : Fin 85} (b : Block) (h : c.val < Config.capacity) :
    appendEdge e c b = .ok (b.appended e c h) := by
  simp only [appendEdge, dif_pos h, tlWrite_of_lt _ _ h, Block.appended]
  split <;> rename_i hc <;> simp [Block.notify, hc]

theorem appendEdge_of_full (e : Edge) {c : Fin 85} (b : Block) (h : ¬ c.val < Config.capacity) :
    appendEdge e c b = .ok b := by
  simp only [appendEdge, dif_neg h]

/-- Everything recording an edge can do: discard it, or append it at the cursor of an armed capture in
progress, the first edge being Low. -/
theorem recordEdge_cases (e : Edge) (b : Block) :
    recordEdge e b = .ok b ∨
    ∃ (c : Fin 85) (h : c.val < Config.capacity), b.armed = true ∧ b.count = .val c ∧
      (c.val = 0 → e.lvl = .low) ∧ recordEdge e b = .ok (b.appended e c h) := by
  unfold recordEdge
  split
  · rename_i ha
    cases hc : b.count with
    | sentinel => exact .inl rfl
    | val c =>
      by_cases hz : c.val = 0
      · simp only [hz, if_true]
        cases hl : e.lvl with
        | high => exact .inl rfl
        | low =>
          have h : c.val < Config.capacity := by rw [hz]; decide
          exact .inr ⟨c, h, ha, rfl, fun _ => rfl, appendEdge_of_lt e b h⟩
      · simp only [hz, if_false]
        by_cases h : c.val < Config.capacity
        · exact .inr ⟨c, h, ha, rfl, fun hz' => absurd hz' hz, appendEdge_of_lt e b h⟩
        · exact .inl (appendEdge_of_full e b h)
  · exact .inl rfl

/-- Recording an edge that is not to be discarded (R73, R74). -/
theorem recordEdge_of_append {e : Edge} {b : Block} {c : Fin 85} (ha : b.armed = true)
    (hc : b.count = .val c) (h : c.val < Config.capacity) (hl : c.val = 0 → e.lvl = .low) :
    recordEdge e b = .ok (b.appended e c h) := by
  simp only [recordEdge, ha, if_true, hc]
  by_cases hz : c.val = 0
  · simp only [hz, if_true, hl hz]; exact appendEdge_of_lt e b h
  · simp only [hz, if_false]; exact appendEdge_of_lt e b h

/-- EDGE reaches exactly its instance, and never faults (R70). -/
theorem execEdge_of_dev {s : State} {d : Device} (hd : s.dev? = some d) {lvl : Level} {ts : Nat}
    {b : Block} (hb : recordEdge ⟨ts, lvl⟩ d.blk = .ok b) :
    execEdge lvl ts s = .next (s.putDev { d with blk := b }) := by
  simp only [execEdge, onDevice_eq_of_dev hd, hb]

end Sys2Proof.Machine
end

