-- ==== Sys2Proof/Laws/Decoder.lean ====
section
/-! SUPPORT. Laws/Decoder.lean: what the status function, the decoder and GET_DATA's body can answer. -/

namespace Sys2Proof.Machine

/-- Modular subtraction of two `W`-bit values, as arithmetic (R19). -/
theorem subW_of_lt {width a b : Nat} (ha : a < 2 ^ width) (hb : b < 2 ^ width) :
    subW width a b = (a + 2 ^ width - b) % 2 ^ width := by
  unfold subW
  rw [BitVec.toNat_sub, BitVec.toNat_ofNat, BitVec.toNat_ofNat, Nat.mod_eq_of_lt ha,
    Nat.mod_eq_of_lt hb]
  congr 1
  omega

/-- The time that has passed since `ref` is counted modulo `2^W` (R19, R128). -/
theorem subW_add (width ref d : Nat) : subW width (ref + d) ref = d % 2 ^ width := by
  unfold subW
  rw [show BitVec.ofNat width (ref + d) = BitVec.ofNat width ref + BitVec.ofNat width d from
    BitVec.ofNat_add ..]
  simp

theorem subW_lt (width a b : Nat) : subW width a b < 2 ^ width := BitVec.isLt _

/-- Everything the status function can answer (R84). -/
theorem statusFn_ok_cases {cfg : Params} {b : Block} {n : Nat} {st : Status}
    (h : statusFn cfg b n = .ok st) :
    (b.count = .sentinel ∧ st = .noData) ∨ (b.count = .val 84 ∧ st = .dataReady) ∨
    ∃ c ref, b.count = .val c ∧ c.val < 84 ∧ statusRef b c = .ok ref ∧
      st = if edgeExpired cfg n ref then .errTimeout else .busy := by
  unfold statusFn at h
  cases hc : b.count with
  | sentinel => rw [hc] at h; cases h; exact .inl ⟨rfl, rfl⟩
  | val c =>
    rw [hc] at h
    simp only at h
    split at h
    · rename_i hz; cases h
      exact .inr (.inl ⟨by congr 1; exact Fin.ext hz, rfl⟩)
    · rename_i hz
      cases hr : statusRef b c with
      | error f => rw [hr] at h; cases h
      | ok ref =>
        rw [hr] at h; cases h
        refine .inr (.inr ⟨c, ref, rfl, ?_, hr, rfl⟩)
        have := c.isLt
        have hz' : c.val ≠ 84 := hz
        omega

/-- The status function answers DataReady exactly for a complete timeline (R84). -/
theorem statusFn_full {cfg : Params} {b : Block} {n : Nat} (h : b.count = .val 84) :
    statusFn cfg b n = .ok .dataReady := by
  simp [statusFn, h]

/-- What the validator accepts (R99): the checksum holds, and the decimal bytes are 0. -/
theorem validate_ok {hi ti c : Byte} {r : Reading} (h : validate hi ti c = .ok r) :
    r = ⟨hi, 0, ti, 0, c⟩ ∧ c = hi + ti := by
  unfold validate at h
  split at h
  · rename_i hc; cases h
    exact ⟨rfl, by simpa [checksum] using hc⟩
  · cases h

/-- An OK decode is three OK bytes that the validator accepts (R101). -/
theorem decodeFn_ok {cfg : Params} {m : Memory} {r : Reading} (h : decodeFn cfg m = .ok (.ok r)) :
    ∃ hi ti c, decodeByte cfg m Config.offHumInt = .ok (.ok hi) ∧
      decodeByte cfg m Config.offTmpInt = .ok (.ok ti) ∧
      decodeByte cfg m Config.offCrc = .ok (.ok c) ∧ validate hi ti c = .ok r := by
  unfold decodeFn at h
  split at h
  · cases h
  · cases h
  · rename_i hi hhi
    split at h
    · cases h
    · cases h
    · rename_i ti hti
      split at h
      · cases h
      · cases h
      · rename_i c hcc
        exact ⟨hi, ti, c, hhi, hti, hcc, by injection h⟩

/-- What an OK decode carries (R101): the decimal bytes are 0 and the checksum holds. -/
theorem decodeFn_ok_reading {cfg : Params} {m : Memory} {r : Reading}
    (h : decodeFn cfg m = .ok (.ok r)) :
    r.humDec = 0 ∧ r.tmpDec = 0 ∧ r.crc = r.humInt + r.tmpInt := by
  obtain ⟨hi, ti, c, -, -, -, hv⟩ := decodeFn_ok h
  obtain ⟨rfl, hc⟩ := validate_ok hv
  exact ⟨rfl, rfl, hc⟩

/-- How one bit can fail (R95, R97). -/
theorem decodeBit_fail {cfg : Params} {e0 e1 e2 : Edge} {st : Status}
    (h : decodeBit cfg e0 e1 e2 = .fail st) : st = .errTimeout ∨ st = .errSequenceInvalid := by
  unfold decodeBit at h
  split at h
  · split at h <;> cases h
    exact .inl rfl
  · cases h; exact .inr rfl

/-- How one byte can fail (R98). -/
theorem decodeBits_fail {cfg : Params} {m : Memory} {off k i : Nat} {v : Byte} {st : Status}
    (h : decodeBits cfg m off k i v = .ok (.fail st)) :
    st = .errTimeout ∨ st = .errSequenceInvalid := by
  induction k generalizing i v with
  | zero => cases h
  | succ k ih =>
    unfold decodeBits at h
    split at h
    · cases h
    · rename_i st' hb
      cases h
      unfold readBit at hb
      split at hb <;> try (cases hb)
      split at hb <;> try (cases hb)
      split at hb <;> try (cases hb)
      exact decodeBit_fail (by injection hb)
    · exact ih h

/-- How a frame can fail (R100, R101). -/
theorem decodeFn_fail {cfg : Params} {m : Memory} {st : Status} (h : decodeFn cfg m = .ok (.fail st)) :
    st = .errTimeout ∨ st = .errSequenceInvalid ∨ st = .errCrc := by
  have key : ∀ {off : Nat} {st' : Status}, decodeByte cfg m off = .ok (.fail st') →
      st' = .errTimeout ∨ st' = .errSequenceInvalid ∨ st' = .errCrc := fun hb =>
    (decodeBits_fail hb).imp id .inl
  unfold decodeFn at h
  split at h
  · cases h
  · rename_i hb; cases h; exact key hb
  · split at h
    · cases h
    · rename_i hb; cases h; exact key hb
    · split at h
      · cases h
      · rename_i hb; cases h; exact key hb
      · simp only [validate, Except.ok.injEq] at h
        split at h <;> cases h
        exact .inr (.inr rfl)

/-- GET_DATA's body on a complete timeline is the decode, stored (R91, R102). -/
theorem getDataBody_full {cfg : Params} {k : Nat} {d : Device} {res : Decoded Reading}
    (h : d.blk.count = .val 84) (hd : decodeFn cfg d.blk.tl = .ok res) :
    getDataBody cfg k d = .ok (storeDecoded k d res) := by
  simp only [getDataBody, statusFn_full h, hd]

/-- Everything GET_DATA's body can do (R91, R102): the status function's answer with nothing changed, an
OK decode stored, or a failed one with the reading left free. -/
theorem getDataBody_ok_cases {cfg : Params} {k : Nat} {d d' : Device} {st : Status}
    (h : getDataBody cfg k d = .ok (st, d')) :
    (d.blk.count ≠ .val 84 ∧ statusFn cfg d.blk (d.now cfg) = .ok st ∧ d' = d) ∨
    (d.blk.count = .val 84 ∧ ∃ r, decodeFn cfg d.blk.tl = .ok (.ok r) ∧ st = .ok ∧
      d' = { d with blk := { d.blk with reading := r, dataValid := true } }) ∨
    (d.blk.count = .val 84 ∧ decodeFn cfg d.blk.tl = .ok (.fail st) ∧ d' = d.forgetReading k) := by
  unfold getDataBody at h
  cases hs : statusFn cfg d.blk (d.now cfg) with
  | error f => rw [hs] at h; cases h
  | ok st' =>
    by_cases hr : st' = .dataReady
    · subst hr
      have hc : d.blk.count = .val 84 := by
        rcases statusFn_ok_cases hs with ⟨-, h2⟩ | ⟨h1, -⟩ | ⟨c, ref, -, -, -, h2⟩
        · cases h2
        · exact h1
        · split at h2 <;> cases h2
      rw [hs] at h
      simp only at h
      cases hd : decodeFn cfg d.blk.tl with
      | error f => rw [hd] at h; cases h
      | ok res =>
        rw [hd] at h
        cases res with
        | ok r => cases h; exact .inr (.inl ⟨hc, r, rfl, rfl, rfl⟩)
        | fail st'' => cases h; exact .inr (.inr ⟨hc, rfl, rfl⟩)
    · have hc : d.blk.count ≠ .val 84 := fun hc => hr (by
        rw [statusFn_full hc] at hs; cases hs; rfl)
      rw [hs] at h
      have : st' = st ∧ d = d' := by
        cases st' <;> first | exact absurd rfl hr | (cases h; exact ⟨rfl, rfl⟩)
      obtain ⟨rfl, rfl⟩ := this
      exact .inl ⟨hc, rfl, rfl⟩

end Sys2Proof.Machine
end

