-- ==== Sys2Proof/Laws/PerInstr.lean ====
section
/-! SUPPORT. Laws/PerInstr.lean: statements made for each operation of the table. -/

namespace Sys2Proof.Laws

/-- The encoded word of a well-formed operation fits its port (R57, R60). -/
def EncodeFits.Statement (i : Instr) : Prop :=
  ∀ width, i.wf width = true → (encode width i).fits width = true

theorem EncodeFits.startRead : EncodeFits.Statement .startRead := fun _ _ => rfl

theorem EncodeFits.checkStatus : EncodeFits.Statement .checkStatus := fun _ _ => rfl

theorem EncodeFits.abortRead : EncodeFits.Statement .abortRead := fun _ _ => rfl

theorem EncodeFits.getData : EncodeFits.Statement .getData := fun _ _ => rfl

theorem EncodeFits.read : EncodeFits.Statement .read := fun _ _ => rfl

theorem EncodeFits.edge (lvl : Level) (ts : Nat) : EncodeFits.Statement (.edge lvl ts) := by
  intro width h
  have hts : ts < 2 ^ width := of_decide_eq_true h
  refine decide_eq_true ?_
  show (if lvl.toBit then 2 ^ width else 0) + ts < 2 ^ (width + 1)
  rw [Nat.pow_succ]
  split <;> omega

end Sys2Proof.Laws
end

