-- ==== Sys2Proof/Laws/Step.lean ====
section
/-! SUPPORT. Laws/Step.lean: everything one step can do to its instance, said once, so that a claim about
every step is a case analysis over `Trans`. -/

namespace Sys2Proof.Machine

/-- What made a step: an operation from a port, or one of the steps without an encoding (R68). -/
inductive Cause where
  | instr (i : Instr)
  | release
  | poll
  | wake

/-- The transitions of one instance `d`, whose number is `k` and whose clock has already moved on. -/
inductive Trans (cfg : Params) (k : Nat) (d : Device) : Cause → Device → Prop where
  /-- START_BEGIN of START_READ (R81). -/
  | startRead (hp : d.blk.phase = .idle) : Trans cfg k d (.instr .startRead) (startBegin cfg .startRead d)
  /-- START_BEGIN of READ (R81). -/
  | read (hp : d.blk.phase = .idle) : Trans cfg k d (.instr .read) (startBegin cfg .read d)
  /-- CHECK_STATUS (R85). -/
  | checkStatus {st : Status} (hp : d.blk.phase = .idle)
      (hs : statusFn cfg d.blk (d.now cfg) = .ok st) : Trans cfg k d (.instr .checkStatus) (d.respond st)
  /-- ABORT_READ (R86). -/
  | abortRead (hp : d.blk.phase = .idle) :
      Trans cfg k d (.instr .abortRead) ((d.mapBlk Block.abort).respond .ok)
  /-- GET_DATA (R91). -/
  | getData {st : Status} {d' : Device} (hp : d.blk.phase = .idle)
      (hb : getDataBody cfg k d = .ok (st, d')) : Trans cfg k d (.instr .getData) (d'.respond st)
  /-- A discarded EDGE (R71 to R73, R75). -/
  | edgeDiscarded {lvl : Level} {ts : Nat} : Trans cfg k d (.instr (.edge lvl ts)) d
  /-- A recorded EDGE (R73, R74, R76). -/
  | edgeRecorded {lvl : Level} {ts : Nat} {c : Fin 85} (h : c.val < Config.capacity)
      (ha : d.blk.armed = true) (hc : d.blk.count = .val c) (hl : c.val = 0 → lvl = .low) :
      Trans cfg k d (.instr (.edge lvl ts)) { d with blk := d.blk.appended ⟨ts, lvl⟩ c h }
  /-- START_RELEASE (R82). -/
  | release (hp : d.blk.phase = .startLow) : Trans cfg k d .release (releaseLine cfg d)
  /-- START_RELEASE is not enabled. -/
  | releaseHeld (hp : d.blk.phase ≠ .startLow) : Trans cfg k d .release d
  /-- ACK_POLL acts (R83). -/
  | poll (hp : d.blk.phase = .awaitAck) (ha : pollActs cfg d.blk (d.now cfg) = true) :
      Trans cfg k d .poll (ackPollEffect d)
  /-- ACK_POLL is not enabled: the engine holds (R83). -/
  | pollHeld (h : d.blk.phase = .awaitAck → pollActs cfg d.blk (d.now cfg) = false) :
      Trans cfg k d .poll d
  /-- WAIT_DONE (R88). -/
  | wake {st : Status} {d' : Device} (hp : d.blk.phase = .waitComplete)
      (hl : d.blk.completePending = true)
      (hb : getDataBody cfg k (d.mapBlk Block.consume) = .ok (st, d')) :
      Trans cfg k d .wake (d'.finish st)
  /-- WAIT_DONE is not enabled: READ goes on waiting (R126). -/
  | wakeHeld (h : wakeEnabled d.blk = false) : Trans cfg k d .wake d

/-- Everything an operation can do when it answers a next state. -/
theorem exec_next_cases {i : Instr} {s t : State} (h : exec i s = .next t) :
    ∃ d d', s.dev? = some d ∧ Trans s.cfg s.sel d (.instr i) d' ∧ t = s.putDev d' := by
  cases i with
  | startRead =>
    obtain ⟨d, d', hd, hp, hf, rfl⟩ := accept_next_iff.mp h
    cases hf; exact ⟨d, _, hd, .startRead hp, rfl⟩
  | read =>
    obtain ⟨d, d', hd, hp, hf, rfl⟩ := accept_next_iff.mp h
    cases hf; exact ⟨d, _, hd, .read hp, rfl⟩
  | abortRead =>
    obtain ⟨d, d', hd, hp, hf, rfl⟩ := accept_next_iff.mp h
    cases hf; exact ⟨d, _, hd, .abortRead hp, rfl⟩
  | checkStatus =>
    obtain ⟨d, d', hd, hp, hf, rfl⟩ := accept_next_iff.mp h
    cases hs : statusFn s.cfg d.blk (d.now s.cfg) with
    | error f => rw [hs] at hf; cases hf
    | ok st => rw [hs] at hf; cases hf; exact ⟨d, _, hd, .checkStatus hp hs, rfl⟩
  | getData =>
    obtain ⟨d, d', hd, hp, hf, rfl⟩ := accept_next_iff.mp h
    cases hb : getDataBody s.cfg s.sel d with
    | error f => rw [hb] at hf; cases hf
    | ok res => rw [hb] at hf; cases hf; exact ⟨d, _, hd, .getData hp hb, rfl⟩
  | edge lvl ts =>
    obtain ⟨d, d', hd, hf, rfl⟩ := onDevice_next_iff.mp h
    rcases recordEdge_cases ⟨ts, lvl⟩ d.blk with hr | ⟨c, hlt, ha, hc, hl, hr⟩
    · rw [hr] at hf; cases hf; exact ⟨d, _, hd, .edgeDiscarded, rfl⟩
    · rw [hr] at hf; cases hf; exact ⟨d, _, hd, .edgeRecorded hlt ha hc hl, rfl⟩

/-- The operations and the steps that an action can stand for. -/
inductive Action.causes (cfg : Params) : Action → Cause → Prop where
  | port {w : PortWord} {i : Instr} (h : decode cfg.tsWidth w = .ok i) :
      Action.causes cfg (.port w) (.instr i)
  | release : Action.causes cfg .release .release
  | poll : Action.causes cfg .poll .poll
  | wake : Action.causes cfg .wake .wake

/-- Everything an action can do when it answers a next state. -/
theorem actionStep_next_cases {a : Action} {s t : State} (h : actionStep a s = .next t) :
    ∃ d d' c, s.dev? = some d ∧ a.causes s.cfg c ∧ Trans s.cfg s.sel d c d' ∧ t = s.putDev d' := by
  cases a with
  | port w =>
    simp only [actionStep, portStep] at h
    cases hw : decode s.cfg.tsWidth w with
    | error e => rw [hw] at h; cases h
    | ok i =>
      rw [hw] at h
      obtain ⟨d, d', hd, ht, rfl⟩ := exec_next_cases h
      exact ⟨d, d', _, hd, .port hw, ht, rfl⟩
  | release =>
    simp only [actionStep, startRelease] at h
    obtain ⟨d, d', hd, hf, rfl⟩ := onDevice_next_iff.mp h
    refine ⟨d, d', _, hd, .release, ?_, rfl⟩
    cases hf
    by_cases hp : d.blk.phase = .startLow
    · simpa [releaseEnabled, hp] using Trans.release hp
    · simpa [releaseEnabled, hp] using Trans.releaseHeld hp
  | poll =>
    simp only [actionStep, ackPoll] at h
    obtain ⟨d, d', hd, hf, rfl⟩ := onDevice_next_iff.mp h
    refine ⟨d, d', _, hd, .poll, ?_, rfl⟩
    cases hp : d.blk.phase with
    | awaitAck =>
      rw [hp] at hf
      cases hf
      cases ha : pollActs s.cfg d.blk (d.now s.cfg) with
      | true => exact .poll hp ha
      | false => exact .pollHeld fun _ => ha
    | idle => rw [hp] at hf; cases hf; exact .pollHeld fun h => by simp [hp] at h
    | startLow => rw [hp] at hf; cases hf; exact .pollHeld fun h => by simp [hp] at h
    | waitComplete => rw [hp] at hf; cases hf; exact .pollHeld fun h => by simp [hp] at h
  | wake =>
    simp only [actionStep, waitDone] at h
    obtain ⟨d, d', hd, hf, rfl⟩ := onDevice_next_iff.mp h
    refine ⟨d, d', _, hd, .wake, ?_, rfl⟩
    cases hw : wakeEnabled d.blk with
    | false => simp only [hw] at hf; cases hf; exact .wakeHeld hw
    | true =>
      simp only [hw, if_true] at hf
      cases hb : getDataBody s.cfg s.sel (d.mapBlk Block.consume) with
      | error f => rw [hb] at hf; cases hf
      | ok res =>
        rw [hb] at hf; cases hf
        simp only [wakeEnabled, Bool.and_eq_true, decide_eq_true_eq] at hw
        exact .wake hw.1 hw.2 hb

/-- A step with a draw to come begins that draw and takes its action. -/
theorem step_cons {s : State} {ev : Event} {rest : List Event} (h : s.script = ev :: rest) :
    step s = actionStep ev.act (s.begin ev rest) := by
  simp only [step, takeStep, h]

/-- Everything a step can do when it answers a next state. -/
theorem step_next_cases {s t : State} (h : step s = .next t) :
    (s.script = [] ∧ t = s) ∨
    ∃ ev rest d d' c, s.script = ev :: rest ∧ s.devices[ev.dev]? = some d ∧
      ev.act.causes s.cfg c ∧ Trans s.cfg ev.dev (d.advance ev.dt) c d' ∧
      t = (s.begin ev rest).putDev d' := by
  cases hs : s.script with
  | nil =>
    simp only [step, takeStep, hs] at h; cases h
    exact .inl ⟨rfl, rfl⟩
  | cons ev rest =>
    rw [step_cons hs] at h
    obtain ⟨d, d', c, hd, hc, ht, rfl⟩ := actionStep_next_cases h
    rw [State.begin_dev?] at hd
    cases hg : s.devices[ev.dev]? with
    | none => rw [hg] at hd; cases hd
    | some d₀ =>
      rw [hg] at hd; cases hd
      exact .inr ⟨ev, rest, d₀, d', c, rfl, hg, hc, ht, rfl⟩

/-- The devices after a step: the stepping one replaced, every other one as it was. -/
theorem begin_putDev_devices (s : State) (ev : Event) (rest : List Event) (d' : Device) (j : Nat) :
    ((s.begin ev rest).putDev d').devices[j]? =
      if j = ev.dev then s.devices[j]?.map (fun _ => d') else s.devices[j]? := by
  simp only [State.putDev_devices, State.begin_devices, State.begin_sel, List.getElem?_set,
    List.length_modify, List.getElem?_modify]
  by_cases hj : j = ev.dev
  · subst hj
    by_cases hl : ev.dev < s.devices.length
    · simp [hl]
    · simp [hl]
  · simp [hj, Ne.symm hj]

end Sys2Proof.Machine
end

