-- ==== Sys2Proof/Tests/Slice0.lean ====
section
/-! SUPPORT. Tests/Slice0.lean: small tests whose expected values are the spec's own tables (30_encoding.md,
95_test_vectors.md), and for every statement with hypotheses a state and operands that meet them together. -/

namespace Sys2Proof.Tests

open Sys2Proof Sys2Proof.Machine Sys2Proof.Claims

/-! ### Well-formedness: a term each check refuses, and the last one it admits -/

theorem test_wf_edge_ts_too_wide : Instr.wf 32 (.edge .low (2 ^ 32)) = false := by decide

theorem test_wf_edge_ts_widest : Instr.wf 32 (.edge .high (2 ^ 32 - 1)) = true := by decide

theorem test_wf_command_word_too_wide : PortWord.fits 32 (.cmd 8) = false := by decide

theorem test_wf_edge_word_too_wide : PortWord.fits 32 (.edge (2 ^ 33)) = false := by decide

theorem test_wf_clock_too_narrow : Params.wf { Params.defaults with tsWidth := 7 } = false := by decide

theorem test_wf_bit1_bound_too_wide :
    Params.wf { Params.defaults with bit1MaxUs := 2 ^ 32 } = false := by decide

theorem test_wf_bit0_bound_too_wide :
    Params.wf { Params.defaults with bit0MaxUs := 2 ^ 32 } = false := by decide

theorem test_wf_defaults : Params.defaults.wf = true := by decide

/-! ### Decoding: words from R58's table, and from the tables of V-SCN and P6 -/

theorem test_decode_start_read : decodeTableWord 3 0b001 = some .startRead := by decide

theorem test_decode_check_status : decodeTableWord 3 0b010 = some .checkStatus := by decide

theorem test_decode_abort_read : decodeTableWord 3 0b011 = some .abortRead := by decide

theorem test_decode_get_data : decodeTableWord 3 0b100 = some .getData := by decide

theorem test_decode_read : decodeTableWord 3 0b101 = some .read := by decide

theorem test_decode_edge_low : decodeTableWord 33 0x000004A56 = some (.edge .low 19030) := by decide

theorem test_decode_edge_high : decodeTableWord 33 0x100004AA6 = some (.edge .high 19110) := by decide

theorem test_decode_reserved :
    decode 32 (.cmd 0b000) = .error (.reservedOpcode 0) ∧
    decode 32 (.cmd 0b110) = .error (.reservedOpcode 6) ∧
    decode 32 (.cmd 0b111) = .error (.reservedOpcode 7) := ⟨rfl, rfl, rfl⟩

theorem test_decode_too_wide :
    decode 32 (.cmd 9) = .error (.tooWide 9) ∧
    decode 32 (.edge (2 ^ 33)) = .error (.tooWide (2 ^ 33)) := ⟨rfl, rfl⟩

/-- Programs P1 and P6 of 95_test_vectors.md: two edge words. -/
theorem test_encode_edge :
    encode 32 (.edge .high 22707) = .edge 0x1000058B3 ∧
    encode 32 (.edge .low 4294966996) = .edge 0x0FFFFFED4 := ⟨rfl, rfl⟩

/-! ### States of one instance -/

/-- A block as R123 leaves it, with numerals where the spec says unwritten, so that tests evaluate. -/
def idleBlk : Block where
  tl := []
  count := .sentinel
  armed := false
  armTs := 7
  completePending := false
  reading := ⟨0, 0, 0, 0, 0⟩
  dataValid := false
  phase := .idle
  cur := .none
  lineDir := .input
  lineDrv := .high

/-- An instance at a block and a clock value. -/
def dev (b : Block) (tau : Nat) : Device where
  blk := b
  tau := tau
  responses := []
  sleep := none
  draws := 0

/-- The machine of that one instance, with the default parameters. -/
def on (d : Device) (script : List Event) : State :=
  { State.reset with devices := [d], script := script }

/-- The instance after a step that gave a next state. -/
def after : StepResult → Option Device
  | .next t => t.dev?
  | .fault _ => none
  | .refused _ => none

/-- The state after a step that gave one. -/
def taken (s : State) : Option State :=
  match step s with
  | .next t => some t
  | .fault _ => none
  | .refused _ => none

theorem step_of_taken {s t : State} (h : taken s = some t) : step s = .next t := by
  unfold taken at h
  split at h <;> simp_all

/-- One draw at instance 0, at the same clock value. -/
def ev (a : Action) : Event := { dev := 0, dt := 0, act := a }

/-- V-SCN's edges, from its generator (95_test_vectors.md: `FRAME 44 0 25 0 69; 80 @ 19030`). -/
def scn : List Edge := linesEdges 32 (pseudoFrame 44 0 25 0 69 80 19030).1

def scnAt (k : Nat) : Edge := scn.getD k { ts := 0, lvl := .low }

def scnTl : Memory := memoryOf scn

/-- A frame with another checksum byte, P3's (V-D9). -/
def badTl : Memory := memoryOf (linesEdges 32 (pseudoFrame 44 0 25 0 70 80 19030).1)

/-- A timeline of one entry, at index `k` with timestamp `ts`. -/
def oneTl (k ts : Nat) : Memory := [(k, { ts := ts, lvl := .low })]

/-- While the start condition is held (V-S1's end state). -/
def low : Block :=
  { idleBlk with
    armed := true, lineDir := .output, lineDrv := .low, phase := .startLow, cur := .startRead }

/-- While the acknowledge is awaited, armed at 18000 (V-S2's end state). -/
def awaiting : Block :=
  { idleBlk with
    armed := true, count := .val 0, armTs := 18000, phase := .awaitAck, cur := .startRead }

/-- A capture with `c` edges recorded, no command in progress. -/
def capturing (c : Fin 85) (m : Memory) : Block :=
  { idleBlk with armed := true, count := .val c, armTs := 19000, tl := m }

/-- A complete timeline, its notification not consumed (P3's state before GET_DATA). -/
def full (m : Memory) : Block := { capturing 84 m with completePending := true }

/-- READ waiting for completion, the timeline complete (P1's state before WAKE). -/
def waiting (m : Memory) : Block := { full m with phase := .waitComplete, cur := .read }

def lowDev : Device :=
  { dev low 0 with sleep := some { since := 0, minMs := 18, maxMs := 20 } }

/-! ### V-SCN -/

theorem test_scn_is_84_edges : scn.length = 84 := by decide +kernel

/-- Rows 0, 5, 8, 82 and 83 of the V-SCN table. -/
theorem test_scn_rows :
    scnAt 0 = ⟨19030, .low⟩ ∧ scnAt 5 = ⟨19317, .high⟩ ∧ scnAt 8 = ⟨19464, .low⟩ ∧
    scnAt 82 = ⟨22657, .low⟩ ∧ scnAt 83 = ⟨22707, .high⟩ := by decide +kernel

/-- V-D1. -/
theorem test_scn_decodes : decodeFn Params.defaults scnTl = .ok (.ok ⟨44, 0, 25, 0, 69⟩) := by
  rfl

/-- V-D8: a structural failure of the checksum byte beats ErrCrc (S5). -/
theorem test_checksum_byte_level : decodeFn Params.defaults (scnTl.set 70 ⟨22109, .high⟩) =
    .ok (.fail .errSequenceInvalid) := by rfl

/-- V-D9. -/
theorem test_bad_checksum : decodeFn Params.defaults badTl = .ok (.fail .errCrc) := by rfl

/-- V-D6: the level is checked before the duration. -/
theorem test_level_before_duration :
    decodeFn Params.defaults ((scnTl.set 2 ⟨19190, .high⟩).set 4 ⟨19321, .low⟩) =
      .ok (.fail .errSequenceInvalid) := by rfl

/-- V-D10: the timestamp of slot 82 is read. -/
theorem test_last_pulse_too_long :
    decodeFn Params.defaults (scnTl.set 82 ⟨22668, .low⟩) = .ok (.fail .errTimeout) := by rfl

/-- V-D17 and V-D16: the wire's decimal byte is ignored. -/
theorem test_decimal_ignored :
    decodeFn Params.defaults (memoryOf (linesEdges 32 (pseudoFrame 44 5 25 0 69 80 19030).1)) =
      .ok (.ok ⟨44, 0, 25, 0, 69⟩) := by rfl

/-- V-C3, V-C4, V-C6, V-C7, V-C8 and V-C10. -/
theorem test_classifier :
    classify Params.defaults (subW 32 135 100) = .bit false ∧
    classify Params.defaults (subW 32 136 100) = .bit true ∧
    classify Params.defaults (subW 32 180 100) = .bit true ∧
    classify Params.defaults (subW 32 181 100) = .tooLong ∧
    classify Params.defaults (subW 32 0x0000000B 0xFFFFFFF0) = .bit false ∧
    classify Params.defaults (subW 32 990 1000) = .tooLong := by decide

/-! ### One step of each operation -/

/-- V-S1. -/
theorem test_start_read :
    after (exec .startRead (on (dev idleBlk 0) [])) = some lowDev := by decide

/-- V-S8: an undecoded complete attempt is lost. -/
theorem test_start_read_discards :
    (after (exec .startRead (on (dev { full scnTl with
      reading := ⟨44, 0, 25, 0, 69⟩, dataValid := true } 23000) []))).map
      (fun d => (d.blk.count, d.blk.completePending, d.blk.dataValid, d.blk.armed)) =
    some (.sentinel, false, false, true) := by decide +kernel

/-- P1's first line. -/
theorem test_read :
    (after (exec .read (on (dev idleBlk 1000) []))).map
      (fun d => (d.blk.phase, d.blk.cur, d.blk.lineOutputs, d.responses)) =
    some (.startLow, .read, ⟨true, false, true⟩, []) := by decide

/-- V-ST4 and V-ST5. -/
theorem test_check_status :
    (after (exec .checkStatus (on (dev (capturing 5 (oneTl 4 1000)) 1100) []))).map
      (·.responses) = some [.busy] ∧
    (after (exec .checkStatus (on (dev (capturing 5 (oneTl 4 1000)) 1101) []))).map
      (·.responses) = some [.errTimeout] := by decide

/-- V-ST6 and V-ST7, across the clock's wrap. -/
theorem test_check_status_wraps :
    (after (exec .checkStatus
      (on (dev (capturing 5 (oneTl 4 0xFFFFFFF0)) (2 ^ 32 + 0x50)) []))).map
      (·.responses) = some [.busy] ∧
    (after (exec .checkStatus
      (on (dev (capturing 5 (oneTl 4 0xFFFFFFF0)) (2 ^ 32 + 0x55)) []))).map
      (·.responses) = some [.errTimeout] := by decide

/-- V-S9. -/
theorem test_abort_read :
    after (exec .abortRead (on (dev (capturing 40 []) 0) [])) =
      some { dev { capturing 40 [] with armed := false, count := .sentinel } 0 with
        responses := [.ok] } := by decide

/-- V-S10: the second changes nothing but the response. -/
theorem test_abort_read_idempotent :
    after (exec .abortRead (on (dev idleBlk 0) [])) =
      some { dev idleBlk 0 with responses := [.ok] } := by decide

/-- V-D1 through GET_DATA: the latch stays (R91). -/
theorem test_get_data :
    (after (exec .getData (on (dev (full scnTl) 23858) []))).map
      (fun d => (d.responses, d.blk.reading, d.blk.dataValid, d.blk.completePending)) =
    some ([.ok], ⟨44, 0, 25, 0, 69⟩, true, true) := by decide +kernel

/-- V-D22: an incomplete timeline is not decoded. -/
theorem test_get_data_incomplete :
    after (exec .getData (on (dev (capturing 40 (oneTl 39 20782)) 20800) [])) =
      some { dev (capturing 40 (oneTl 39 20782)) 20800 with responses := [.busy] } := by decide

/-- V-E5 and V-E4. -/
theorem test_edge_first :
    after (exec (.edge .low 100) (on (dev (capturing 0 []) 0) [])) =
      some (dev (capturing 1 (oneTl 0 100)) 0) ∧
    after (exec (.edge .high 100) (on (dev (capturing 0 []) 0) [])) =
      some (dev (capturing 0 []) 0) := by decide

/-- V-E8. -/
theorem test_edge_last :
    after (exec (.edge .high 950) (on (dev (capturing 83 []) 0) [])) =
      some (dev { capturing 84 [(83, ⟨950, .high⟩)] with completePending := true } 0) := by
  decide

/-! ### The steps with no encoding -/

/-- V-S2. -/
theorem test_release :
    after (startRelease (on { lowDev with tau := 18000 } [])) = some (dev awaiting 18000) := by
  decide

/-- V-S3 and V-S4. -/
theorem test_poll_timeout :
    after (ackPoll (on (dev awaiting 18060) [])) = some (dev awaiting 18060) ∧
    (after (ackPoll (on (dev awaiting 18061) []))).map
      (fun d => (d.responses, d.blk.count, d.blk.armed, d.blk.phase)) =
    some ([.errTimeout], .sentinel, false, .idle) := by decide

/-- V-S6: the edge wins over the clock. -/
theorem test_poll_acknowledged :
    (after (ackPoll (on (dev { awaiting with count := .val 1, tl := oneTl 0 18070 } 18075) []))).map
      (fun d => (d.responses, d.blk.count, d.blk.armed, d.blk.phase)) =
    some ([.ok], .val 1, true, .idle) := by decide

/-- P1's last line, and its reading port `rd = 0x2C00190045`. -/
theorem test_wake :
    (after (waitDone (on (dev (waiting scnTl) 22707) []))).map
      (fun d => (d.responses, d.blk.completePending, d.blk.phase, d.blk.cur)) =
      some ([.ok], false, .idle, .none) ∧
    Block.readingPort { full scnTl with
      reading := ⟨44, 0, 25, 0, 69⟩, dataValid := true } =
      (true, some 0x2C00190045#40) := by
  refine ⟨by decide +kernel, rfl⟩

/-! ### From reset: a word presented is the next step, and runs -/

theorem test_fetch_start_read :
    (after (step (State.reset.withFetchWord 3 1))).map (·.blk.phase) = some .startLow := by decide

theorem test_fetch_check_status :
    (after (step (State.reset.withFetchWord 3 2))).map (·.responses) = some [.noData] := by decide

theorem test_fetch_abort_read :
    (after (step (State.reset.withFetchWord 3 3))).map (·.responses) = some [.ok] := by decide

theorem test_fetch_get_data :
    (after (step (State.reset.withFetchWord 3 4))).map (·.responses) = some [.noData] := by decide

theorem test_fetch_read :
    (after (step (State.reset.withFetchWord 3 5))).map (·.blk.cur) = some .read := by decide

/-- V-E1. -/
theorem test_fetch_edge :
    after (step (State.reset.withFetchWord 33 100)) = some (Device.reset Params.defaults 0) := rfl

theorem test_reset_memory_wf : (Block.reset Params.defaults 0).tl.wf = true := by decide

/-- A well-formed script in the sense of R68: P2's lines up to its response. -/
theorem test_script_ok :
    State.scriptOk (on (dev idleBlk 5000) (assemble 32 0 5000
      [{ op := .startRead, time := 5000 }, { op := .release, time := 23000 },
       { op := .edge .high, time := 23020 }, { op := .poll, time := 23061 }])) = true := by decide

/-- The same with the poll at 23060, where it is not enabled. -/
theorem test_script_poll_not_enabled :
    State.scriptOk (on (dev idleBlk 5000) (assemble 32 0 5000
      [{ op := .startRead, time := 5000 }, { op := .release, time := 23000 },
       { op := .poll, time := 23060 }])) = false := by decide

/-! ### Witnesses: for each statement, states and operands that meet its hypotheses

Where a statement has several clauses, one witness each, at the boundaries of its ranges. -/

theorem on_dev (d : Device) (script : List Event) : (on d script).dev? = some d := rfl

theorem holds_of (m : Memory) (E : Nat → Edge) (lo hi : Nat)
    (h : ∀ k : Fin (hi + 1), lo ≤ k.val → m.get? k.val = some (E k.val)) : Holds m E lo hi :=
  fun k h1 h2 => h ⟨k, Nat.lt_succ_of_le h2⟩ h1

theorem scn_holds : Holds scnTl scnAt 2 82 := holds_of _ _ _ _ (by decide +kernel)

/-- A step on the one instance, as the whole-machine statements see it. -/
theorem stepsTo_on {d d' : Device} {e : Event} {t : State} (h0 : e.dev = 0)
    (h : taken (on d [e]) = some t) (hd : t.devices[0]? = some d') : StepsTo (on d [e]) t e d d' :=
  ⟨step_of_taken h, rfl, by rw [h0]; rfl, by rw [h0]; exact hd⟩

/-- What the instance became, and the machine with it. -/
theorem stepsTo_after {d d' : Device} {e : Event} (h0 : e.dev = 0)
    (h : taken (on d [e]) = some (on d' [])) : StepsTo (on d [e]) (on d' []) e d d' :=
  stepsTo_on h0 h rfl

/-! Encodings -/

theorem witness_DecodeOfEncode : Instr.wf 32 (.edge .high (2 ^ 32 - 1)) = true := by decide

theorem witness_EncodeOfDecode :
    decode 32 (.cmd 5) = .ok .read ∧ decode 32 (.edge (2 ^ 33 - 1)) = .ok (.edge .high (2 ^ 32 - 1)) :=
  ⟨rfl, rfl⟩

theorem witness_CommandWordTable : (0 < 8) ∧ (7 < 8) := by decide

theorem witness_EdgeWordFields : 2 ^ 33 - 1 < 2 ^ (32 + 1) := by decide

/-! What a step runs -/

theorem witness_StepRunsDecoded :
    (on (dev idleBlk 0) [ev (.port (.cmd 1))]).script = [ev (.port (.cmd 1))] ∧
    decode 32 (.cmd 1) = .ok .startRead := ⟨rfl, rfl⟩

theorem witness_StepRunsEngine :
    (on lowDev [ev .release]).script = [ev .release] ∧ (ev .release).act = .release ∧
    (ev .poll).act = .poll ∧ (ev .wake).act = .wake := ⟨rfl, rfl, rfl, rfl⟩

theorem witness_ReservedOpcodesRefused :
    ∀ w ∈ [0, 6, 7], (on lowDev [ev (.port (.cmd w))]).script = [ev (.port (.cmd w))] ∧
      (w = 0 ∨ w = 6 ∨ w = 7) := by decide

/-- An instance that accepts, and one that does not. -/
theorem witness_PortAcceptsAtIdle :
    (on (dev idleBlk 0) []).dev? = some (dev idleBlk 0) ∧
    (on lowDev []).dev? = some lowDev ∧ lowDev.blk.phase ≠ .idle := by decide

/-! The commands -/

theorem witness_StartReadBegins :
    (on (dev idleBlk 0) []).dev? = some (dev idleBlk 0) ∧ idleBlk.phase = .idle := ⟨rfl, rfl⟩

theorem witness_ReadBegins :
    (on (dev (capturing 40 []) 7) []).dev? = some (dev (capturing 40 []) 7) ∧
    (capturing 40 []).phase = .idle := ⟨rfl, rfl⟩

theorem witness_StartReleaseReleases :
    (on lowDev []).dev? = some lowDev ∧ lowDev.blk.phase = .startLow := ⟨rfl, rfl⟩

/-- The four clauses: an edge seen by START_READ, by READ, the clock past the timeout by 1, and at it. -/
theorem witness_AckPollOutcomes :
    (∀ d ∈ [dev { awaiting with count := .val 1 } 18061, dev { awaiting with count := .val 84 } 0],
      d.blk.phase = .awaitAck ∧ d.blk.count ≠ .val 0 ∧ d.blk.cur = .startRead) ∧
    ({ awaiting with count := .val 1, cur := .read } : Block).cur = .read ∧
    (awaiting.phase = .awaitAck ∧ awaiting.count = .val 0 ∧ awaiting.armTs = 18000) ∧
    60 < subW 32 (18061 % 2 ^ 32) 18000 ∧ subW 32 (18060 % 2 ^ 32) 18000 ≤ 60 := by decide

/-- The clauses: no data, complete, `count = 0` and 1 and 83, each at the timeout and one past it. -/
theorem witness_CheckStatusAnswers :
    (idleBlk.phase = .idle ∧ idleBlk.count = .sentinel) ∧
    ((full []).phase = .idle ∧ (full []).count = .val 84) ∧
    ((capturing 0 []).phase = .idle ∧ (capturing 0 []).count = .val 0 ∧
      (capturing 0 []).armTs = 19000) ∧
    ((capturing 1 (oneTl 0 1000)).phase = .idle ∧
      (oneTl 0 1000).get? ((1 : Fin 85).val - 1) = some ⟨1000, .low⟩) ∧
    ((capturing 83 (oneTl 82 1000)).phase = .idle ∧
      (oneTl 82 1000).get? ((83 : Fin 85).val - 1) = some ⟨1000, .low⟩) ∧
    subW 32 (1100 % 2 ^ 32) 1000 ≤ 100 ∧ 100 < subW 32 (1101 % 2 ^ 32) 1000 ∧
    subW 32 (19100 % 2 ^ 32) 19000 ≤ 100 ∧ 100 < subW 32 (19101 % 2 ^ 32) 19000 := by decide

theorem witness_CheckStatusStops :
    ((capturing 1 []).phase = .idle ∧ Memory.get? [] ((1 : Fin 85).val - 1) = none) ∧
    ((capturing 83 []).phase = .idle ∧ Memory.get? [] ((83 : Fin 85).val - 1) = none) := by decide

theorem witness_AbortReadResult :
    (on (dev (capturing 40 []) 7) []).dev? = some (dev (capturing 40 []) 7) ∧
    (capturing 40 []).phase = .idle := ⟨rfl, rfl⟩

theorem witness_AbortLeavesNoData :
    (on (dev (full scnTl) 7) []).dev? = some (dev (full scnTl) 7) ∧ (full scnTl).phase = .idle :=
  ⟨rfl, rfl⟩

theorem witness_GetDataNotReady :
    (on (dev (capturing 83 []) 0) []).dev? = some (dev (capturing 83 []) 0) ∧
    (capturing 83 []).count ≠ .val 84 ∧ idleBlk.count ≠ .val 84 := by decide

/-- An OK frame and one that fails. -/
theorem witness_GetDataReportsDecode :
    (full scnTl).phase = .idle ∧ (full scnTl).count = .val 84 ∧
    decodeFn Params.defaults (full scnTl).tl = .ok (.ok ⟨44, 0, 25, 0, 69⟩) ∧
    (full badTl).phase = .idle ∧ (full badTl).count = .val 84 ∧
    decodeFn Params.defaults (full badTl).tl = .ok (.fail .errCrc) :=
  ⟨rfl, rfl, test_scn_decodes, rfl, rfl, test_bad_checksum⟩

theorem witness_GetDataCompletes :
    (on (dev (full scnTl) 0) []).dev? = some (dev (full scnTl) 0) ∧ (full scnTl).phase = .idle ∧
    (full scnTl).count = .val 84 ∧ Holds (full scnTl).tl scnAt 2 82 := ⟨rfl, rfl, rfl, scn_holds⟩

theorem witness_GetDataRepeats :
    let d := dev (full scnTl) 0
    let d' : Device :=
      { d with
        blk := { full scnTl with reading := ⟨44, 0, 25, 0, 69⟩, dataValid := true }
        responses := [.ok] }
    (on d []).dev? = some d ∧ d.blk.count = .val 84 ∧ exec .getData (on d []) = .next (on d' []) ∧
    (on d' []).dev? = some d' ∧ d'.responses = d.responses ++ [.ok] := ⟨rfl, rfl, rfl, rfl, rfl⟩

theorem witness_WaitDoneEndsRead :
    (waiting scnTl).phase = .waitComplete ∧ (waiting scnTl).completePending = true ∧
    (waiting scnTl).count = .val 84 ∧
    decodeFn Params.defaults (waiting scnTl).tl = .ok (.ok ⟨44, 0, 25, 0, 69⟩) ∧
    (waiting badTl).phase = .waitComplete ∧ (waiting badTl).completePending = true ∧
    (waiting badTl).count = .val 84 ∧
    decodeFn Params.defaults (waiting badTl).tl = .ok (.fail .errCrc) :=
  ⟨rfl, rfl, rfl, test_scn_decodes, rfl, rfl, rfl, test_bad_checksum⟩

/-- A READ whose 83rd edge never came. -/
def stalled : Block := { capturing 82 [] with phase := .waitComplete, cur := .read }

theorem witness_ReadCanWaitForEver :
    (on (dev stalled 0) [ev .wake, ev .poll, ev .release]).devices[0]? = some (dev stalled 0) ∧
    stalled.phase = .waitComplete ∧ stalled.completePending = false ∧
    ∀ e ∈ (on (dev stalled 0) [ev .wake, ev .poll, ev .release]).script,
      e.dev = 0 ∧ (e.act = .release ∨ e.act = .poll ∨ e.act = .wake) := by decide

/-- P4's first four lines. -/
theorem witness_StartReadAcknowledged :
    let s := on (dev idleBlk 1000)
      [{ dev := 0, dt := 0, act := .port (.cmd 1) }, { dev := 0, dt := 18000, act := .release },
       edgeEvent Params.defaults 0 (30, scnAt 0), { dev := 0, dt := 1, act := .poll }]
    s.devices[0]? = some (dev idleBlk 1000) ∧ idleBlk.phase = .idle ∧
    (scnAt 0).lvl = .low ∧ (scnAt 0).ts < 2 ^ 32 ∧
    s.script = { dev := 0, dt := 0, act := .port (.cmd 1) } ::
      { dev := 0, dt := 18000, act := .release } :: edgeEvent Params.defaults 0 (30, scnAt 0) ::
      { dev := 0, dt := 1, act := .poll } :: [] :=
  ⟨rfl, rfl, rfl, by decide +kernel, rfl⟩

/-- The poll one microsecond past the timeout, and at the last microsecond of a clock period. -/
theorem witness_StartReadTimesOut :
    ∀ c ∈ [61, 2 ^ 32 - 1], ∀ op ∈ [1, 5],
      let s := on (dev idleBlk 0)
        [{ dev := 0, dt := 0, act := .port (.cmd op) }, { dev := 0, dt := 18000, act := .release },
         { dev := 0, dt := c, act := .poll }]
      s.devices[0]? = some (dev idleBlk 0) ∧ (op = 1 ∨ op = 5) ∧ s.cfg.ackTimeoutUs < c ∧
      c < 2 ^ s.cfg.tsWidth := by decide

/-- P1, with every edge drawn at one clock value. -/
theorem witness_ReadDeliversFrame :
    let x : Nat × Edge := (0, scnAt 0)
    let xs : List (Nat × Edge) := scn.tail.map fun e => (0, e)
    xs.length = 83 ∧ x.2.lvl = .low ∧ (∀ y ∈ x :: xs, y.2.ts < 2 ^ 32) ∧
    decodeFn Params.defaults (memoryOf ((x :: xs).map Prod.snd)) = .ok (.ok ⟨44, 0, 25, 0, 69⟩) := by
  refine ⟨by decide +kernel, by decide +kernel, by decide +kernel, rfl⟩

/-! The capture path -/

/-- The four discards. -/
theorem witness_EdgeDiscarded :
    (dev idleBlk 0).blk.armed = false ∧ lowDev.blk.count = .sentinel ∧
    (capturing 0 []).count = .val 0 ∧ (full []).count = .val 84 := by decide

/-- The first slot, which wants a Low edge, and the last. -/
theorem witness_EdgeRecorded :
    ((capturing 0 []).armed = true ∧ (capturing 0 []).count = .val 0 ∧ (0 : Fin 85).val < 84) ∧
    ((capturing 83 []).armed = true ∧ (capturing 83 []).count = .val 83 ∧ (83 : Fin 85).val < 84 ∧
      ((83 : Fin 85).val = 0 → Level.high = .low)) := by decide

theorem witness_EdgeAlwaysCompletes : (on (dev stalled 0) []).dev? = some (dev stalled 0) := rfl

/-- Indices 0 and 83, and 84, which does not exist. -/
theorem witness_TimelineReadWrite :
    (0 ≤ 83) ∧ (83 ≤ 83) ∧ Memory.get? [] 83 = none ∧ (83 < 84) ∧ Memory.wf [] = true := by decide

/-! The decoder -/

theorem witness_ModularSubtraction :
    (∀ x ∈ [(5, 5), (14, 4294967283), (4294967283, 14)], x.1 < 2 ^ 32 ∧ x.2 < 2 ^ 32) := by decide

/-- Eight good bits; a first bit with a bad level; a last bit too long. -/
theorem witness_ByteAssembly :
    Holds scnTl scnAt 2 (2 + 16) ∧ (∀ i, i < 8 → BitOk Params.defaults scnAt 2 i) ∧
    (∃ E, Holds (scnTl.set 2 ⟨19190, .high⟩) E 2 (2 + 16) ∧ ¬ LevelsOk E 2 0) ∧
    (∃ E, Holds (scnTl.set 18 ⟨19989, .low⟩) E 2 (2 + 16) ∧
      (∀ j, j < 7 → BitOk Params.defaults E 2 j) ∧ LevelsOk E 2 7 ∧ 80 < duration 32 E 2 7) := by
  refine ⟨fun k h1 h2 => scn_holds k h1 (by omega), by unfold BitOk LevelsOk; decide +kernel,
    ⟨fun k => if k = 2 then ⟨19190, .high⟩ else scnAt k, holds_of _ _ _ _ (by decide +kernel), by
      unfold LevelsOk; decide +kernel⟩,
    ⟨fun k => if k = 18 then ⟨19989, .low⟩ else scnAt k, holds_of _ _ _ _ (by decide +kernel), by
      unfold BitOk LevelsOk; decide +kernel, by unfold LevelsOk; decide +kernel, by decide +kernel⟩⟩

/-- A failing first, second and third byte; three good bytes with a good and with a bad checksum. -/
theorem witness_FrameStatus :
    decodeByte Params.defaults (scnTl.set 2 ⟨19190, .high⟩) 2 = .ok (.fail .errSequenceInvalid) ∧
    (decodeByte Params.defaults (scnTl.set 34 ⟨20551, .high⟩) 2 = .ok (.ok 44) ∧
      decodeByte Params.defaults (scnTl.set 34 ⟨20551, .high⟩) 34 =
        .ok (.fail .errSequenceInvalid)) ∧
    (decodeByte Params.defaults (scnTl.set 82 ⟨22668, .low⟩) 2 = .ok (.ok 44) ∧
      decodeByte Params.defaults (scnTl.set 82 ⟨22668, .low⟩) 34 = .ok (.ok 25) ∧
      decodeByte Params.defaults (scnTl.set 82 ⟨22668, .low⟩) 66 = .ok (.fail .errTimeout)) ∧
    (decodeByte Params.defaults scnTl 2 = .ok (.ok 44) ∧
      decodeByte Params.defaults scnTl 34 = .ok (.ok 25) ∧
      decodeByte Params.defaults scnTl 66 = .ok (.ok 69) ∧ 69 = (44 + 25) % 256) ∧
    (decodeByte Params.defaults badTl 66 = .ok (.ok 70) ∧ 70 ≠ (44 + 25) % 256) :=
  ⟨rfl, ⟨rfl, rfl⟩, ⟨rfl, rfl, rfl⟩, ⟨rfl, rfl, rfl, by decide⟩, ⟨rfl, by decide⟩⟩

theorem witness_DecodeOkExactly :
    Holds scnTl scnAt 2 82 ∧ IsByteAt Params.defaults scnAt 2 44 ∧
    IsByteAt Params.defaults scnAt 34 25 ∧ IsByteAt Params.defaults scnAt 66 69 := by
  refine ⟨scn_holds, ?_, ?_, ?_⟩ <;> unfold IsByteAt <;> decide +kernel

/-- V-D7's change, which no decode sees. -/
theorem witness_UnusedSlotsIgnored :
    let E' : Nat → Edge := fun k => if k = 20 then ⟨20012, .high⟩ else scnAt k
    Holds scnTl scnAt 2 82 ∧ Holds (scnTl.set 20 ⟨20012, .high⟩) E' 2 82 ∧
    (∀ k, readsLevel k → (scnAt k).lvl = (E' k).lvl) ∧
    (∀ k, readsTime k → (scnAt k).ts = (E' k).ts) := by
  refine ⟨scn_holds, holds_of _ _ _ _ (by decide +kernel), fun k h => ?_, fun k h => ?_⟩
  · have h2 : k ≠ 20 := by unfold readsLevel at h; omega
    simp only [if_neg h2]
  · have h2 : k ≠ 20 := by unfold readsTime readsLevel at h; omega
    simp only [if_neg h2]

/-- The defaults, the narrowest clock with the tightest bounds, and both kinds of checksum byte. -/
theorem witness_FrameDecodes :
    (∀ p ∈ [Params.defaults, { Params.defaults with tsWidth := 8, bit0MaxUs := 27, bit1MaxUs := 70 },
        { Params.defaults with bit0MaxUs := 69 }],
      8 ≤ p.tsWidth ∧ 27 ≤ p.bit0MaxUs ∧ p.bit0MaxUs < 70 ∧ 70 ≤ p.bit1MaxUs) ∧
    (69 : Byte) = 44 + 25 ∧ (0 : Byte) = 255 + 1 ∧ (70 : Byte) ≠ 44 + 25 := by decide

/-! The ports -/

theorem witness_ReadingPortPacking :
    let b : Block := { full [] with reading := ⟨44, 0, 25, 0, 69⟩, dataValid := true }
    b.dataValid = true ∧ b.reading = ⟨44, 0, 25, 0, 69⟩ ∧ idleBlk.dataValid = false := by
  decide

/-- A name that a code has. -/
theorem witness_StatusCodesAndNames : statusName 6 = "ERR_CRC" ∧ statusCode .errCrc = 6 := by decide

theorem witness_CountView : ∀ v ∈ [85#8, 254#8], 85 ≤ v.toNat ∧ v.toNat ≤ 254 := by decide

/-! The whole machine -/

theorem get?_mem {m : Memory} {k : Nat} {e : Edge} (h : m.get? k = some e) : (k, e) ∈ m := by
  induction m with
  | nil => exact absurd h (by simp [Memory.get?])
  | cons x m ih =>
    obtain ⟨a, y⟩ := x
    simp only [Memory.get?] at h
    split at h
    · cases h
      subst_vars
      exact List.mem_cons_self ..
    · exact List.mem_cons_of_mem _ (ih h)

theorem inv_on {d : Device} {script : List Event} (h : d.Inv Params.defaults) :
    (on d script).Inv where
  params := show Params.defaults.wf = true by decide
  instances := Nat.le_refl 1
  device := fun x hx => by
    rw [List.mem_singleton.mp hx]
    exact h

/-- While the start condition is held. -/
theorem lowDev_inv : lowDev.Inv Params.defaults where
  tl_wf := rfl
  tl_ts := fun _ _ h => by cases h
  armTs_ts := by decide
  below_written := fun _ h => by cases h
  first_low := fun _ _ h => by cases h
  idle_iff := by decide
  wait_read := by decide
  waiting_line := by decide
  start_low := by decide
  waiting_count := by decide
  zero_await := by decide
  counting := by decide
  idle_disarmed := by decide
  pending_full := by decide
  full_pending := by decide
  valid_reading := fun h => by cases h
  valid_count := fun h => by cases h
  sleep_iff := by decide

/-- While the acknowledge is awaited. -/
theorem awaiting_inv (tau : Nat) : (dev awaiting tau).Inv Params.defaults where
  tl_wf := rfl
  tl_ts := fun _ _ h => by cases h
  armTs_ts := show 18000 < 2 ^ 32 by decide
  below_written := fun _ h => by cases h; exact fun _ hk => absurd hk (Nat.not_lt_zero _)
  first_low := fun _ _ h => by cases h; exact fun hc => absurd hc (by decide)
  idle_iff := by simp [dev, awaiting]
  wait_read := fun h => by cases h
  waiting_line := fun _ => ⟨rfl, rfl⟩
  start_low := fun h => by cases h
  waiting_count := fun _ h => by cases h
  zero_await := fun _ => rfl
  counting := fun _ => rfl
  idle_disarmed := fun h => by cases h
  pending_full := fun h => by cases h
  full_pending := fun _ h => by cases h
  valid_reading := fun h => by cases h
  valid_count := fun h => by cases h
  sleep_iff := by simp [dev, awaiting, dev]

theorem scn_written (k : Nat) (h : k < 84) : (full scnTl).written k :=
  Option.isSome_iff_exists.mp
    ((by decide +kernel : ∀ k : Fin 84, (scnTl.get? k.val).isSome = true) ⟨k, h⟩)

/-- A complete timeline, nothing in progress. -/
theorem full_inv (tau : Nat) : (dev (full scnTl) tau).Inv Params.defaults where
  tl_wf := by show Memory.wf scnTl = true; decide +kernel
  tl_ts := fun k e h =>
    (by decide +kernel : ∀ x ∈ scnTl, x.2.ts < 2 ^ 32) (k, e) (get?_mem h)
  armTs_ts := show 19000 < 2 ^ 32 by decide
  below_written := fun _ h k hk => by cases h; exact scn_written k hk
  first_low := fun _ e _ _ h => by
    have h0 : scnTl.get? 0 = some ⟨19030, .low⟩ := by decide +kernel
    have h1 : scnTl.get? 0 = some e := h
    rw [h0] at h1
    cases h1
    rfl
  idle_iff := by simp [dev, full, capturing, idleBlk]
  wait_read := fun h => by cases h
  waiting_line := fun h => by rcases h with h | h <;> cases h
  start_low := fun h => by cases h
  waiting_count := fun h => by rcases h with h | h <;> cases h
  zero_await := fun h => by cases h
  counting := fun _ => rfl
  idle_disarmed := fun h => by cases h
  pending_full := fun _ => .inl rfl
  full_pending := fun h => by rcases h with h | h <;> cases h
  valid_reading := fun h => by cases h
  valid_count := fun h => by cases h
  sleep_iff := by simp [dev, full, capturing, idleBlk, dev]

theorem witness_StartConditionDiscardsEdges :
    (on lowDev []).Inv ∧ (on lowDev []).dev? = some lowDev ∧ lowDev.blk.phase = .startLow :=
  ⟨inv_on lowDev_inv, rfl, rfl⟩

/-- The narrowest clock, and both bounds at the widest a clock of 32 bits takes. -/
theorem witness_InvAtReset :
    Params.defaults.wf = true ∧ Params.wf { Params.defaults with tsWidth := 8 } = true ∧
    Params.wf { Params.defaults with bit0MaxUs := 2 ^ 32 - 1, bit1MaxUs := 2 ^ 32 - 1 } = true ∧
    1 ≤ 1 := by decide

theorem witness_ResetState : (0 < 1) ∧ (2 < 3) := by decide

/-- RELEASE in the start condition. -/
theorem low_release :
    StepsTo (on lowDev [ev .release]) (on (releaseLine Params.defaults lowDev) []) (ev .release)
      lowDev (releaseLine Params.defaults lowDev) :=
  stepsTo_after rfl (by decide)

theorem witness_StepKeepsInv :
    (on lowDev [ev .release]).Inv ∧
    step (on lowDev [ev .release]) = .next (on (releaseLine Params.defaults lowDev) []) ∧
    (on (dev (full scnTl) 0) [ev (.port (.cmd 4))]).Inv :=
  ⟨inv_on lowDev_inv, low_release.1, inv_on (full_inv 0)⟩

theorem witness_InvNeverFaults : (on (dev (full scnTl) 0) [ev (.port (.cmd 4))]).Inv :=
  inv_on (full_inv 0)

theorem witness_ParametersFixed :
    step (on lowDev [ev .release]) = .next (on (releaseLine Params.defaults lowDev) []) :=
  low_release.1

theorem witness_ClockAdvances :
    StepsTo (on lowDev [ev .release]) (on (releaseLine Params.defaults lowDev) []) (ev .release)
      lowDev (releaseLine Params.defaults lowDev) := low_release

/-- Two machines of two instances that differ in the instance that does not step. -/
theorem witness_InstancesIndependent :
    let s : State := { on lowDev [ev .release] with devices := [lowDev, dev awaiting 0] }
    let s' : State := { on lowDev [ev .release] with devices := [lowDev, dev (full []) 7] }
    let t : State := { on lowDev [] with devices := [releaseLine Params.defaults lowDev, dev awaiting 0] }
    step s = .next t ∧ s.script.head? = some (ev .release) ∧ 1 ≠ (ev .release).dev ∧
    s.cfg = s'.cfg ∧ s.script = s'.script ∧ s.devices[0]? = s'.devices[0]? ∧
    s.devices[1]? ≠ s'.devices[1]? := by
  refine ⟨step_of_taken (by decide), rfl, by decide, rfl, rfl, rfl, by decide⟩

/-- A draw of CHECK_STATUS, and one of START_READ. -/
def query : Event := ev (.port (.cmd 2))

def start : Event := ev (.port (.cmd 1))

/-- A step that responds at IDLE, one that ends a START_READ, and one that does not respond. -/
theorem witness_OneResponsePerCommand :
    (∃ d', (on (dev (full scnTl) 0) [query]).Inv ∧ Runs (on (dev (full scnTl) 0) [query]) query .checkStatus ∧
      StepsTo (on (dev (full scnTl) 0) [query]) (on d' []) query (dev (full scnTl) 0) d') ∧
    (∃ d', (on (dev awaiting 18061) [ev .poll]).Inv ∧ d'.responses = [.errTimeout] ∧
      StepsTo (on (dev awaiting 18061) [ev .poll]) (on d' []) (ev .poll) (dev awaiting 18061) d') ∧
    ((on lowDev [ev .release]).Inv ∧
      StepsTo (on lowDev [ev .release]) (on (releaseLine Params.defaults lowDev) []) (ev .release)
        lowDev (releaseLine Params.defaults lowDev)) :=
  ⟨⟨{ dev (full scnTl) 0 with responses := [.dataReady] }, inv_on (full_inv 0), ⟨.cmd 2, rfl, rfl⟩,
      stepsTo_after rfl (by decide +kernel)⟩,
    ⟨(Device.mapBlk Block.abort (dev awaiting 18061)).finish .errTimeout,
      inv_on (awaiting_inv 18061), by decide, stepsTo_after rfl (by decide)⟩,
    inv_on lowDev_inv, low_release⟩

/-- START_READ at IDLE. -/
theorem start_steps :
    StepsTo (on (dev idleBlk 0) [start]) (on lowDev []) start (dev idleBlk 0) lowDev :=
  stepsTo_after rfl (by decide)

theorem witness_OnlyStartsLeaveIdle :
    StepsTo (on (dev idleBlk 0) [start]) (on lowDev []) start (dev idleBlk 0) lowDev ∧
    (dev idleBlk 0).blk.phase ≠ .startLow ∧ lowDev.blk.phase = .startLow ∧
    (dev idleBlk 0).blk.phase = .idle ∧ lowDev.blk.phase ≠ .idle :=
  ⟨start_steps, by decide, rfl, rfl, by decide⟩

/-- Capture armed by START_READ, disarmed by ABORT_READ, disarmed by the timeout. -/
theorem witness_ArmedWrittenBy :
    (StepsTo (on (dev idleBlk 0) [start]) (on lowDev []) start (dev idleBlk 0) lowDev ∧
      (dev idleBlk 0).blk.armed = false ∧ lowDev.blk.armed = true) ∧
    (∃ d', StepsTo (on (dev (capturing 40 []) 0) [ev (.port (.cmd 3))]) (on d' [])
        (ev (.port (.cmd 3))) (dev (capturing 40 []) 0) d' ∧
      (capturing 40 []).armed = true ∧ d'.blk.armed = false) ∧
    (∃ d', StepsTo (on (dev awaiting 18061) [ev .poll]) (on d' []) (ev .poll)
        (dev awaiting 18061) d' ∧ awaiting.armed = true ∧ d'.blk.armed = false) :=
  ⟨⟨start_steps, rfl, rfl⟩,
    ⟨(Device.mapBlk Block.abort (dev (capturing 40 []) 0)).respond .ok,
      stepsTo_after rfl (by decide), rfl, rfl⟩,
    ⟨(Device.mapBlk Block.abort (dev awaiting 18061)).finish .errTimeout,
      stepsTo_after rfl (by decide), rfl, rfl⟩⟩

/-- An edge at 83 with the latch clear, and a START_READ with it set. -/
theorem witness_LatchWrittenBy :
    (∃ d', StepsTo (on (dev (capturing 83 []) 0) [ev (.port (.edge 950))]) (on d' [])
        (ev (.port (.edge 950))) (dev (capturing 83 []) 0) d' ∧
      RunsEdge (on (dev (capturing 83 []) 0) [ev (.port (.edge 950))]) (ev (.port (.edge 950))) ∧
      (capturing 83 []).completePending = false ∧ d'.blk.completePending = true ∧
      (capturing 83 []).count = .val 83 ∧ d'.blk.count = .val 84) ∧
    (∃ d', StepsTo (on (dev (full []) 0) [start]) (on d' []) start (dev (full []) 0) d' ∧
      (full []).completePending = true ∧ d'.blk.completePending = false) :=
  ⟨⟨dev { full [] with tl := [(83, ⟨950, .low⟩)] } 0, stepsTo_after rfl (by decide),
      ⟨.low, 950, .edge 950, rfl, rfl⟩, rfl, rfl, rfl, rfl⟩,
    ⟨startBegin Params.defaults .startRead (dev (full []) 0), stepsTo_after rfl (by decide), rfl, rfl⟩⟩

/-- An edge, and a step that is no edge. -/
theorem witness_WhoWritesTheTimeline :
    (∃ d', StepsTo (on (dev (capturing 0 []) 0) [ev (.port (.edge 100))]) (on d' [])
        (ev (.port (.edge 100))) (dev (capturing 0 []) 0) d' ∧
      RunsEdge (on (dev (capturing 0 []) 0) [ev (.port (.edge 100))]) (ev (.port (.edge 100)))) ∧
    (StepsTo (on lowDev [ev .release]) (on (releaseLine Params.defaults lowDev) []) (ev .release)
        lowDev (releaseLine Params.defaults lowDev) ∧ ¬ RunsEdge (on lowDev [ev .release]) (ev .release)) :=
  ⟨⟨dev (capturing 1 (oneTl 0 100)) 0, stepsTo_after rfl (by decide),
      ⟨.low, 100, .edge 100, rfl, rfl⟩⟩,
    low_release, fun ⟨_, _, _, h, _⟩ => by cases h⟩

/-- An edge at the last slot, and slot 82 below it. -/
theorem witness_CapturedSlotsKept :
    ∃ d', StepsTo (on (dev (capturing 83 (oneTl 82 900)) 0) [ev (.port (.edge 950))]) (on d' [])
        (ev (.port (.edge 950))) (dev (capturing 83 (oneTl 82 900)) 0) d' ∧
      (capturing 83 (oneTl 82 900)).count = .val 83 ∧ 82 < (83 : Fin 85).val :=
  ⟨dev { full [] with tl := [(82, ⟨900, .low⟩), (83, ⟨950, .low⟩)] } 0,
    stepsTo_after rfl (by decide), rfl, by decide⟩

/-- The 85th edge. -/
theorem witness_CompleteTimelineFrozen :
    (on (dev (full scnTl) 0) [ev (.port (.edge 999))]).Inv ∧
    StepsTo (on (dev (full scnTl) 0) [ev (.port (.edge 999))]) (on (dev (full scnTl) 0) [])
      (ev (.port (.edge 999))) (dev (full scnTl) 0) (dev (full scnTl) 0) ∧
    (full scnTl).count = .val 84 ∧
    ∀ i ∈ [Instr.startRead, .read, .abortRead],
      ¬ Runs (on (dev (full scnTl) 0) [ev (.port (.edge 999))]) (ev (.port (.edge 999))) i := by
  refine ⟨inv_on (full_inv 0), stepsTo_after rfl (by decide +kernel), rfl, ?_⟩
  intro i hi h
  obtain ⟨w, hw, hd⟩ := h
  cases hw
  cases hd
  exact absurd hi (by decide)

/-- A query at a complete timeline, and the timeout that leaves `count = 0`. -/
theorem witness_IdleNeverAtZero :
    (∃ d', (on (dev (full scnTl) 0) [query]).Inv ∧ d'.blk.phase = .idle ∧
      StepsTo (on (dev (full scnTl) 0) [query]) (on d' []) query (dev (full scnTl) 0) d') ∧
    (∃ d', (on (dev awaiting 18061) [ev .poll]).Inv ∧ d'.blk.phase = .idle ∧
      StepsTo (on (dev awaiting 18061) [ev .poll]) (on d' []) (ev .poll) (dev awaiting 18061) d') :=
  ⟨⟨{ dev (full scnTl) 0 with responses := [.dataReady] }, inv_on (full_inv 0), rfl,
      stepsTo_after rfl (by decide +kernel)⟩,
    ⟨(Device.mapBlk Block.abort (dev awaiting 18061)).finish .errTimeout,
      inv_on (awaiting_inv 18061), rfl, stepsTo_after rfl (by decide)⟩⟩

/-- START_READ, which drives the line and enables the interrupt, and the timeout, which disables it. -/
theorem witness_LineWrittenBy :
    (StepsTo (on (dev idleBlk 0) [start]) (on lowDev []) start (dev idleBlk 0) lowDev ∧
      lowDev.blk.lineOutputs.lineDir ≠ (dev idleBlk 0).blk.lineOutputs.lineDir ∧
      (dev idleBlk 0).blk.lineOutputs.irqEn = false ∧ lowDev.blk.lineOutputs.irqEn = true) ∧
    (∃ d', StepsTo (on (dev awaiting 18061) [ev .poll]) (on d' []) (ev .poll)
        (dev awaiting 18061) d' ∧
      awaiting.lineOutputs.irqEn = true ∧ d'.blk.lineOutputs.irqEn = false) :=
  ⟨⟨start_steps, by decide, rfl, rfl⟩,
    ⟨(Device.mapBlk Block.abort (dev awaiting 18061)).finish .errTimeout,
      stepsTo_after rfl (by decide), rfl, rfl⟩⟩

/-- The release, which meets the premises of the first three clauses, and a machine that differs only in what
the spec calls unwritten. -/
theorem witness_ArmTsWrittenBy :
    let e : Device := { lowDev with blk := { low with armTs := 9, reading := ⟨1, 2, 3, 4, 5⟩ } }
    StepsTo (on lowDev [ev .release]) (on (releaseLine Params.defaults lowDev) []) (ev .release)
      lowDev (releaseLine Params.defaults lowDev) ∧
    (releaseLine Params.defaults lowDev).blk.armTs ≠ lowDev.blk.armTs ∧
    lowDev.blk.count ≠ .val 0 ∧ (releaseLine Params.defaults lowDev).blk.count = .val 0 ∧
    (ev .release).act = .release ∧ lowDev.blk.phase = .startLow ∧
    (on e [ev .release]).cfg = (on lowDev [ev .release]).cfg ∧
    (on e [ev .release]).script = (on lowDev [ev .release]).script ∧
    (on e [ev .release]).devices[(ev .release).dev]? = some e ∧ SameButUnseen lowDev e ∧ e ≠ lowDev :=
  ⟨low_release, by decide, by decide, rfl, rfl, rfl, rfl, rfl, rfl,
    ⟨9, ⟨1, 2, 3, 4, 5⟩, rfl, fun h => absurd rfl h, fun h => by cases h⟩, by decide⟩

/-- The views at the least and the greatest cursor of a capture, and instances that meet the invariant. -/
theorem witness_ViewsAndLineOutputs :
    (capturing 1 []).viewCapturing = true ∧ (capturing 83 []).viewCapturing = true ∧
    (full []).viewCapturing = false ∧ lowDev.Inv Params.defaults ∧
    (dev (full scnTl) 0).Inv Params.defaults := ⟨rfl, rfl, rfl, lowDev_inv, full_inv 0⟩

theorem witness_ReadingWrittenBy :
    ∃ d', StepsTo (on (dev (full scnTl) 0) [ev (.port (.cmd 4))]) (on d' []) (ev (.port (.cmd 4)))
        (dev (full scnTl) 0) d' ∧
      d'.blk.reading ≠ (full scnTl).reading ∧ (full scnTl).dataValid = false ∧
      d'.blk.dataValid = true :=
  ⟨{ dev { full scnTl with reading := ⟨44, 0, 25, 0, 69⟩, dataValid := true } 0 with
      responses := [.ok] },
    stepsTo_after rfl (by decide +kernel), by decide, rfl, rfl⟩

end Sys2Proof.Tests
end

/-! SUPPORT. Proofs of the claims about the scope and its parameters (00_scope.md). -/

namespace Sys2Proof.Machine

/-- The classifier's two bit answers (R97), as `classify_tooLong_iff` gives its third. -/
theorem classify_bit_iff {cfg : Params} {d : Nat} {b : Bool} :
    classify cfg d = .bit b ↔ d ≤ cfg.bit1MaxUs ∧ decide (cfg.bit0MaxUs < d) = b := by
  by_cases hd : d ≤ cfg.bit1MaxUs
  · simp [classify_of_le hd, hd]
  · simp [classify_tooLong_iff.mpr (Nat.lt_of_not_le hd), hd]

/-- Taking a draw and putting the instance back neither adds nor removes an instance (R17). -/
theorem begin_putDev_length (s : State) (ev : Event) (rest : List Event) (d : Device) :
    ((s.begin ev rest).putDev d).devices.length = s.devices.length := by
  simp

end Sys2Proof.Machine

namespace Sys2Proof.Proofs

open Sys2Proof.Machine

/-- Settles O46, from what a step can do: it ends where it began, or with one instance put back. -/
theorem parametersFixed : Obligations.ParametersFixed := by
  intro s t h
  obtain ⟨-, rfl⟩ | ⟨ev, rest, -, d', -, -, -, -, -, rfl⟩ := step_next_cases h
  · exact ⟨rfl, rfl⟩
  · exact ⟨rfl, begin_putDev_length s ev rest d'⟩

/-- Settles O6: the draw's action is its port's, and the decoded word names the arm of `exec`. -/
theorem stepRunsDecoded : Obligations.StepRunsDecoded := by
  intro s ev rest w i hs hw hd
  have hbegin : decode (s.begin ev rest).cfg.tsWidth w = .ok i := hd
  rw [step_cons hs, hw]
  simp only [actionStep, portStep, hbegin]
  rfl

/-- Settles O32: `a + 2^W - b` already lies below `2^W`, or exceeds it by the difference. -/
theorem modularSubtraction : Obligations.ModularSubtraction := by
  intro width a b ha hb
  rw [subW_of_lt ha hb]
  split
  case isTrue hle =>
    have hwrap : a + 2 ^ width - b = a - b + 2 ^ width := by omega
    rw [hwrap, Nat.add_mod_right, Nat.mod_eq_of_lt (by omega)]
  case isFalse hlt => exact Nat.mod_eq_of_lt (by omega)

/-- Settles O33: each answer's condition, and the conditions of bit 1 exclude each other when the
thresholds do not rise. -/
theorem classifierTable : Obligations.ClassifierTable := by
  intro cfg d
  refine ⟨classify_tooLong_iff, ?_, ?_, fun hle h => ?_⟩
  · rw [classify_bit_iff, decide_eq_true_iff, and_comm]
  · rw [classify_bit_iff, decide_eq_false_iff_not, Nat.not_lt, and_comm]
  · obtain ⟨hbit1, hbit0⟩ := classify_bit_iff.mp h
    exact absurd (of_decide_eq_true hbit0) (Nat.not_lt.mpr (hbit1.trans hle))

end Sys2Proof.Proofs

/-! SUPPORT. Proofs of the claims about the state (10_state.md): the invariant, and that no step from a state
that meets it faults. -/

namespace Sys2Proof.Machine

/-! ### What the shared steps leave in the block -/

@[simp] theorem startBegin_blk (cfg : Params) (op : Cur) (d : Device) :
    (startBegin cfg op d).blk = { d.blk with
      armed := true, count := .sentinel, completePending := false, dataValid := false
      lineDir := .output, lineDrv := .low, phase := .startLow, cur := op } := rfl

@[simp] theorem startBegin_sleep (cfg : Params) (op : Cur) (d : Device) :
    (startBegin cfg op d).sleep = some ⟨d.tau, cfg.tStartMinMs, cfg.tStartMaxMs⟩ := rfl

@[simp] theorem releaseLine_blk (cfg : Params) (d : Device) :
    (releaseLine cfg d).blk = { d.blk with
      lineDrv := .high, count := .val 0, armTs := d.now cfg, lineDir := .input, phase := .awaitAck } :=
  rfl

@[simp] theorem releaseLine_sleep (cfg : Params) (d : Device) : (releaseLine cfg d).sleep = none := rfl

theorem Device.now_lt (cfg : Params) (d : Device) : d.now cfg < 2 ^ cfg.tsWidth :=
  Nat.mod_lt _ (Nat.two_pow_pos _)

/-- The acknowledge timeout (R83). -/
theorem ackPollEffect_of_zero {d : Device} (h : d.blk.count = .val 0) :
    ackPollEffect d = (d.mapBlk Block.abort).finish .errTimeout := if_pos h

/-- An acknowledge that has been seen (R83): READ moves on, START_READ ends. -/
theorem ackPollEffect_of_seen {d : Device} (h : d.blk.count ≠ .val 0) :
    (d.blk.cur = .read ∧ ackPollEffect d = d.mapBlk (Block.enter .waitComplete .read)) ∨
    (d.blk.cur = .startRead ∧ ackPollEffect d = d.finish .ok) ∨
    (d.blk.cur = .none ∧ ackPollEffect d = d) := by
  rw [ackPollEffect, if_neg h]
  cases d.blk.cur with
  | read => exact .inl ⟨rfl, rfl⟩
  | startRead => exact .inr (.inl ⟨rfl, rfl⟩)
  | none => exact .inr (.inr ⟨rfl, rfl⟩)

/-- No command word is an edge event (R58). -/
theorem decodeOp_ne_edge (w : Nat) (lvl : Level) (ts : Nat) : decodeOp w ≠ some (.edge lvl ts) := by
  unfold decodeOp
  split <;> exact nofun

/-- A decoded edge event carries a `W`-bit timestamp (R60). -/
theorem decode_edge_ts_lt {width : Nat} {w : PortWord} {lvl : Level} {ts : Nat}
    (h : decode width w = .ok (.edge lvl ts)) : ts < 2 ^ width := by
  cases w with
  | cmd w =>
    simp only [decode] at h
    split at h
    · split at h
      · rename_i hop
        cases h
        exact absurd hop (decodeOp_ne_edge w lvl ts)
      · cases h
    · cases h
  | edge w =>
    simp only [decode] at h
    split at h
    · cases h; exact Nat.mod_lt _ (Nat.two_pow_pos _)
    · cases h

/-! ### The invariant, update by update -/

section Inv

variable {cfg : Params} {d : Device}

/-- The clock is no part of the invariant. -/
theorem Device.Inv.advance (h : d.Inv cfg) (dt : Nat) : (d.advance dt).Inv cfg := { h with }

/-- A response is no part of the invariant. -/
theorem Device.Inv.respond (h : d.Inv cfg) (st : Status) : (d.respond st).Inv cfg := { h with }

/-- A valid reading belongs to IDLE (R32). -/
theorem Device.Inv.not_valid (h : d.Inv cfg) (hp : d.blk.phase ≠ .idle) : d.blk.dataValid ≠ true :=
  fun hv => hp (h.valid_reading hv).1

theorem Device.Inv.no_sleep (h : d.Inv cfg) (hp : d.blk.phase ≠ .startLow) : d.sleep = none :=
  not_not.mp fun hs => hp (h.sleep_iff.mp hs)

/-- START_BEGIN sets up all that START_LOW asks for (R81). -/
theorem Device.Inv.startBegin (h : d.Inv cfg) {op : Cur} (hop : op ≠ .none) :
    (startBegin cfg op d).Inv cfg where
  tl_wf := h.tl_wf
  tl_ts := h.tl_ts
  armTs_ts := h.armTs_ts
  below_written := nofun
  first_low := nofun
  idle_iff := ⟨nofun, fun hc => absurd hc hop⟩
  wait_read := nofun
  waiting_line := by simp
  start_low := fun _ => ⟨rfl, rfl, rfl, rfl, rfl⟩
  waiting_count := by simp
  zero_await := nofun
  counting := fun _ => rfl
  idle_disarmed := nofun
  pending_full := nofun
  full_pending := by simp
  valid_reading := nofun
  valid_count := nofun
  sleep_iff := by simp

/-- START_RELEASE begins the acknowledge wait with `count = 0` (R82). -/
theorem Device.Inv.releaseLine (h : d.Inv cfg) (hp : d.blk.phase = .startLow) :
    (releaseLine cfg d).Inv cfg := by
  obtain ⟨harmed, -, -, -, hpending⟩ := h.start_low hp
  have hidle : d.blk.phase ≠ .idle := by simp [hp]
  exact {
    tl_wf := h.tl_wf
    tl_ts := h.tl_ts
    armTs_ts := d.now_lt cfg
    below_written := by rintro n ⟨⟩ k hk; cases hk
    first_low := by rintro n e ⟨⟩ hn; cases hn
    idle_iff := ⟨nofun, fun hc => absurd (h.idle_iff.mpr hc) hidle⟩
    wait_read := nofun
    waiting_line := fun _ => ⟨harmed, rfl⟩
    start_low := nofun
    waiting_count := fun _ => nofun
    zero_await := fun _ => rfl
    counting := fun _ => harmed
    idle_disarmed := nofun
    pending_full := fun hc => absurd (hpending.symm.trans hc) nofun
    full_pending := fun _ => nofun
    valid_reading := fun hv => absurd hv (h.not_valid hidle)
    valid_count := fun hv => absurd hv (h.not_valid hidle)
    sleep_iff := by simp }

/-- Giving an attempt up for IDLE: ABORT_READ and the acknowledge timeout (R83, R86). -/
theorem Device.Inv.abort (h : d.Inv cfg) (hp : d.blk.phase ≠ .startLow) :
    (d.mapBlk fun b => b.abort.enter .idle .none).Inv cfg where
  tl_wf := h.tl_wf
  tl_ts := h.tl_ts
  armTs_ts := h.armTs_ts
  below_written := nofun
  first_low := nofun
  idle_iff := by simp
  wait_read := nofun
  waiting_line := by simp
  start_low := nofun
  waiting_count := by simp
  zero_await := nofun
  counting := fun hc => absurd rfl hc
  idle_disarmed := fun _ _ => rfl
  pending_full := fun _ => .inr ⟨rfl, rfl⟩
  full_pending := by simp
  valid_reading := fun hv => ⟨rfl, (h.valid_reading hv).2⟩
  valid_count := fun _ => .inr rfl
  sleep_iff := by simp [h.no_sleep hp]

/-- READ moves on to its completion wait (R83). -/
theorem Device.Inv.enterWait (h : d.Inv cfg) (hp : d.blk.phase = .awaitAck)
    (hz : d.blk.count ≠ .val 0) : (d.mapBlk (Block.enter .waitComplete .read)).Inv cfg := by
  have hidle : d.blk.phase ≠ .idle := by simp [hp]
  exact { h with
    idle_iff := by simp
    wait_read := fun _ => rfl
    waiting_line := fun _ => h.waiting_line (.inl hp)
    start_low := nofun
    waiting_count := fun _ => h.waiting_count (.inl hp)
    zero_await := fun hc => absurd hc hz
    idle_disarmed := nofun
    pending_full := fun hc => .inl ((h.pending_full hc).resolve_right fun hi => hidle hi.2)
    full_pending := fun _ => h.full_pending (.inl hp)
    valid_reading := fun hv => absurd hv (h.not_valid hidle)
    sleep_iff := by simp [h.no_sleep (show d.blk.phase ≠ .startLow by simp [hp])] }

/-- A START_READ or READ that ends with its sequence still there (R83, R88, R90). -/
theorem Device.Inv.finish (h : d.Inv cfg) (hw : d.blk.phase = .awaitAck ∨ d.blk.phase = .waitComplete)
    (hz : d.blk.count ≠ .val 0) (st : Status) : (d.finish st).Inv cfg := by
  have hlow : d.blk.phase ≠ .startLow := by rintro hp; simp [hp] at hw
  exact { h with
    idle_iff := by simp
    wait_read := nofun
    waiting_line := by simp
    start_low := nofun
    waiting_count := by simp
    zero_await := fun hc => absurd hc hz
    idle_disarmed := fun hc => absurd hc (h.waiting_count hw)
    pending_full := fun hc => (h.pending_full hc).imp_right fun hi => ⟨hi.1, rfl⟩
    full_pending := by simp
    valid_reading := fun hv => ⟨rfl, (h.valid_reading hv).2⟩
    sleep_iff := by simp [h.no_sleep hlow] }

/-- At IDLE nothing rests on the latch (R38 item 5). -/
theorem Device.Inv.consume (h : d.Inv cfg) (hp : d.blk.phase = .idle) :
    (d.mapBlk Block.consume).Inv cfg :=
  { h with
    start_low := fun hl => absurd (hp.symm.trans hl) nofun
    pending_full := nofun
    full_pending := by simp [hp] }

/-- A failed decode leaves a reading that is not valid (R102). -/
theorem Device.Inv.forgetReading (h : d.Inv cfg) (k : Nat) : (d.forgetReading k).Inv cfg :=
  { h with
    valid_reading := nofun
    valid_count := nofun }

/-- An OK decode of the complete timeline is a valid reading (R31, R32, R99). -/
theorem Device.Inv.storeReading (h : d.Inv cfg) {r : Reading} (hp : d.blk.phase = .idle)
    (hc : d.blk.count = .val 84) (hd : decodeFn cfg d.blk.tl = .ok (.ok r)) :
    Device.Inv cfg { d with blk := { d.blk with reading := r, dataValid := true } } :=
  { h with
    valid_reading := fun _ => ⟨hp, decodeFn_ok_reading hd⟩
    valid_count := fun _ => .inl ⟨hc, hd⟩ }

/-- Recording an edge at the cursor (R44, R73, R74, R76). -/
theorem Device.Inv.appended (h : d.Inv cfg) {e : Edge} {c : Fin 85} (hlt : c.val < Config.capacity)
    (harmed : d.blk.armed = true) (hc : d.blk.count = .val c) (hl : c.val = 0 → e.lvl = .low)
    (hts : e.ts < 2 ^ cfg.tsWidth) :
    Device.Inv cfg { d with blk := d.blk.appended e c hlt } := by
  have hsent : d.blk.count ≠ .sentinel := by simp [hc]
  have hfull : d.blk.count ≠ .val 84 := by
    intro h84
    cases hc.symm.trans h84
    exact absurd hlt (by decide)
  have hsame : (d.blk.appended e c hlt).tl.get? c.val = some e := Memory.get?_set_same ..
  have hother : ∀ k, k ≠ c.val → (d.blk.appended e c hlt).tl.get? k = d.blk.tl.get? k :=
    fun k hk => Memory.get?_set_other _ _ hk
  exact { h with
    tl_wf := Memory.risesFrom_set e (Nat.zero_le _) hlt h.tl_wf
    tl_ts := by
      intro k x hx
      by_cases hk : k = c.val
      · rw [hk, hsame] at hx; cases hx; exact hts
      · rw [hother k hk] at hx; exact h.tl_ts k x hx
    below_written := by
      rintro n ⟨⟩ k hk
      by_cases hkc : k = c.val
      · exact ⟨e, hkc ▸ hsame⟩
      · obtain ⟨x, hx⟩ := h.below_written c hc k (by simp at hk; omega)
        exact ⟨x, (hother k hkc).trans hx⟩
    first_low := by
      rintro n x - - hx
      by_cases hz : c.val = 0
      · rw [← hz, hsame] at hx; cases hx; exact hl hz
      · rw [hother 0 (Ne.symm hz)] at hx; exact h.first_low c x hc (Nat.pos_of_ne_zero hz) hx
    start_low := fun hp => absurd (h.start_low hp).2.2.2.1 hsent
    waiting_count := fun _ => nofun
    zero_await := fun hz => by simp [Block.appended] at hz
    counting := fun _ => harmed
    idle_disarmed := nofun
    pending_full := by
      intro hp
      rcases Bool.or_eq_true_iff.mp hp with hp | hlast
      · rcases h.pending_full hp with h84 | ⟨h0, -⟩
        · exact absurd h84 hfull
        · exact absurd h0 hsent
      · exact .inl (congrArg Count.val (Fin.ext (of_decide_eq_true hlast)))
    full_pending := fun _ hn => by
      have hlast : c.val + 1 = Config.capacity := congrArg Fin.val (Count.val.inj hn)
      simp [Block.appended, hlast]
    valid_count := fun hv => by
      rcases h.valid_count hv with ⟨h84, -⟩ | h0
      · exact absurd h84 hfull
      · exact absurd h0 hsent }

end Inv

/-! ### Every transition keeps the invariant -/

section Steps

variable {cfg : Params} {k : Nat} {d d' : Device}

/-- ACK_POLL from the acknowledge wait (R83): the timeout gives the attempt up, an acknowledge ends START_READ
and moves READ on, and no third command waits. -/
theorem Device.Inv.ackPollEffect (h : d.Inv cfg) (hp : d.blk.phase = .awaitAck) :
    (ackPollEffect d).Inv cfg := by
  by_cases hz : d.blk.count = .val 0
  · rw [ackPollEffect_of_zero hz]
    exact (h.abort (by simp [hp])).respond .errTimeout
  · rcases ackPollEffect_of_seen hz with ⟨-, heq⟩ | ⟨-, heq⟩ | ⟨hcur, -⟩
    · rw [heq]; exact h.enterWait hp hz
    · rw [heq]; exact h.finish (.inl hp) hz .ok
    · exact absurd (hp.symm.trans (h.idle_iff.mpr hcur)) nofun

/-- GET_DATA's body at IDLE (R91, R102). -/
theorem Device.Inv.getDataBody (h : d.Inv cfg) {st : Status} (hp : d.blk.phase = .idle)
    (hb : getDataBody cfg k d = .ok (st, d')) : d'.Inv cfg := by
  rcases getDataBody_ok_cases hb with ⟨-, -, rfl⟩ | ⟨hc, r, hd, -, rfl⟩ | ⟨-, -, rfl⟩
  · exact h
  · exact h.storeReading hp hc hd
  · exact h.forgetReading k

/-- WAIT_DONE (R88). Ending READ, consuming the latch and running GET_DATA's body at IDLE, in that order, is the
same step, and passes only through instances that meet the invariant. -/
theorem Device.Inv.waitDone (h : d.Inv cfg) {st : Status} (hp : d.blk.phase = .waitComplete)
    (hl : d.blk.completePending = true)
    (hb : Machine.getDataBody cfg k (d.mapBlk Block.consume) = .ok (st, d')) : (d'.finish st).Inv cfg := by
  have hc : d.blk.count = .val 84 :=
    (h.pending_full hl).resolve_right fun hi => absurd (hp.symm.trans hi.2) nofun
  have hended : ((d.finish st).mapBlk Block.consume).Inv cfg :=
    (h.finish (.inr hp) (by simp [hc]) st).consume rfl
  rcases getDataBody_ok_cases hb with ⟨hne, -⟩ | ⟨-, r, hd, -, rfl⟩ | ⟨-, -, rfl⟩
  · exact absurd hc hne
  · exact hended.storeReading rfl hc hd
  · exact hended.forgetReading k

/-- Every transition keeps the invariant, its edge's timestamp being a `W`-bit one. -/
theorem Trans.keeps_inv {c : Cause} (ht : Trans cfg k d c d') (h : d.Inv cfg)
    (hts : ∀ lvl ts, c = .instr (.edge lvl ts) → ts < 2 ^ cfg.tsWidth) : d'.Inv cfg := by
  cases ht with
  | startRead => exact h.startBegin nofun
  | read => exact h.startBegin nofun
  | checkStatus => exact h.respond _
  | abortRead hp =>
    have hback : d.blk.abort.enter .idle .none = d.blk.abort := by
      rw [← hp, ← h.idle_iff.mp hp]; rfl
    have habort := h.abort (by simp [hp])
    simp only [Device.mapBlk, hback] at habort
    exact habort.respond .ok
  | getData hp hb => exact (h.getDataBody hp hb).respond _
  | edgeDiscarded => exact h
  | edgeRecorded hlt harmed hc hl => exact h.appended hlt harmed hc hl (hts _ _ rfl)
  | release hp => exact h.releaseLine hp
  | releaseHeld => exact h
  | poll hp => exact h.ackPollEffect hp
  | pollHeld => exact h
  | wake hp hl hb => exact h.waitDone hp hl hb
  | wakeHeld => exact h

/-- What an action stands for is well formed: the edges of a port word carry `W`-bit timestamps (R60). -/
theorem Action.causes_edge_ts_lt {a : Action} {lvl : Level} {ts : Nat}
    (h : a.causes cfg (.instr (.edge lvl ts))) : ts < 2 ^ cfg.tsWidth := by
  cases h with
  | port hw => exact decode_edge_ts_lt hw

end Steps

/-- An instance of the machine meets its invariant, found by its number. -/
theorem State.Inv.dev {s : State} (h : s.Inv) {j : Nat} {d : Device} (hd : s.devices[j]? = some d) :
    d.Inv s.cfg :=
  h.device d (List.mem_of_getElem? hd)

/-- A draw taken by an instance that meets the invariant afterwards keeps the machine's. -/
theorem State.Inv.begin_putDev {s : State} (h : s.Inv) (ev : Event) (rest : List Event) {d : Device}
    (hd : d.Inv s.cfg) : ((s.begin ev rest).putDev d).Inv where
  params := h.params
  instances := by rw [begin_putDev_length]; exact h.instances
  device := by
    intro x hx
    obtain ⟨j, hj⟩ := List.mem_iff_getElem?.mp hx
    rw [begin_putDev_devices] at hj
    split at hj
    · obtain ⟨-, -, rfl⟩ := Option.map_eq_some_iff.mp hj
      exact hd
    · exact h.dev hj

/-! ### No transition from the invariant faults -/

section Faults

variable {cfg : Params} {d : Device} {f : Fault}

/-- An incomplete timeline is never answered with DataReady (R84). -/
theorem statusFn_ne_dataReady {b : Block} {n : Nat} {st : Status} (hc : b.count ≠ .val 84)
    (hs : statusFn cfg b n = .ok st) : st ≠ .dataReady := by
  rintro rfl
  rcases statusFn_ok_cases hs with ⟨-, hst⟩ | ⟨h84, -⟩ | ⟨c, ref, -, -, -, hst⟩
  · cases hst
  · exact hc h84
  · split at hst <;> cases hst

/-- GET_DATA's body on an incomplete timeline gives the status function's answer (R91). -/
theorem getDataBody_of_not_full {k : Nat} {st : Status} (hc : d.blk.count ≠ .val 84)
    (hs : statusFn cfg d.blk (d.now cfg) = .ok st) : getDataBody cfg k d = .ok (st, d) := by
  have hne := statusFn_ne_dataReady hc hs
  cases st with
  | dataReady => exact absurd rfl hne
  | _ => simp only [getDataBody, hs]

/-- GET_DATA's body faults where the status function does, or the decode of a complete timeline. -/
theorem getDataBody_error_cases {k : Nat} (h : getDataBody cfg k d = .error f) :
    statusFn cfg d.blk (d.now cfg) = .error f ∨
    (d.blk.count = .val 84 ∧ decodeFn cfg d.blk.tl = .error f) := by
  by_cases hc : d.blk.count = .val 84
  · simp only [getDataBody, statusFn_full hc] at h
    split at h
    · rename_i hd; cases h; exact .inr ⟨hc, hd⟩
    · cases h
  · cases hs : statusFn cfg d.blk (d.now cfg) with
    | error g => simp only [getDataBody, hs] at h; cases h; exact .inl rfl
    | ok st => rw [getDataBody_of_not_full hc hs] at h; cases h

/-- The only places where an operation can fault (R40): the status function, and the decode of a complete
timeline. -/
theorem exec_fault_cases {i : Instr} {s : State} (h : exec i s = .fault f) :
    ∃ d, s.dev? = some d ∧ (statusFn s.cfg d.blk (d.now s.cfg) = .error f ∨
      (d.blk.count = .val 84 ∧ decodeFn s.cfg d.blk.tl = .error f)) := by
  cases i with
  | startRead => obtain ⟨d, -, -, hf⟩ := accept_fault_iff.mp h; cases hf
  | read => obtain ⟨d, -, -, hf⟩ := accept_fault_iff.mp h; cases hf
  | abortRead => obtain ⟨d, -, -, hf⟩ := accept_fault_iff.mp h; cases hf
  | checkStatus =>
    obtain ⟨d, hd, -, hf⟩ := accept_fault_iff.mp h
    split at hf
    · cases hf
    · rename_i hs; cases hf; exact ⟨d, hd, .inl hs⟩
  | getData =>
    obtain ⟨d, hd, -, hf⟩ := accept_fault_iff.mp h
    split at hf
    · cases hf
    · rename_i hb; cases hf; exact ⟨d, hd, getDataBody_error_cases hb⟩
  | edge lvl ts =>
    obtain ⟨d, -, hf⟩ := onDevice_fault_iff.mp h
    rcases recordEdge_cases ⟨ts, lvl⟩ d.blk with hr | ⟨c, hlt, -, -, -, hr⟩ <;>
      rw [hr] at hf <;> cases hf

/-- Nor does any action fault elsewhere: RELEASE and POLL never, WAKE where GET_DATA's body does. -/
theorem actionStep_fault_cases {a : Action} {s : State} (h : actionStep a s = .fault f) :
    ∃ d, s.dev? = some d ∧ (statusFn s.cfg d.blk (d.now s.cfg) = .error f ∨
      (d.blk.count = .val 84 ∧ decodeFn s.cfg d.blk.tl = .error f)) := by
  cases a with
  | port w =>
    simp only [actionStep, portStep] at h
    split at h
    · exact exec_fault_cases h
    · cases h
  | release =>
    simp only [actionStep, startRelease] at h
    obtain ⟨d, -, hf⟩ := onDevice_fault_iff.mp h
    cases hf
  | poll =>
    simp only [actionStep, ackPoll] at h
    obtain ⟨d, -, hf⟩ := onDevice_fault_iff.mp h
    split at hf <;> cases hf
  | wake =>
    simp only [actionStep, waitDone] at h
    obtain ⟨d, hd, hf⟩ := onDevice_fault_iff.mp h
    split at hf
    · split at hf
      · cases hf
      · rename_i hb
        cases hf
        exact ⟨d, hd, getDataBody_error_cases (d := d.mapBlk Block.consume) hb⟩
    · cases hf

/-- A written slot is read without a fault (R40). -/
theorem tlRead_of_written {b : Block} {i : Nat} (hi : i < Config.capacity) (h : b.written i) :
    ∃ e, tlRead b.tl i = .ok e := by
  obtain ⟨e, he⟩ := h
  exact ⟨e, tlRead_of_get? hi he⟩

section Status

variable {b : Block} (hw : ∀ n, b.count = .val n → ∀ k, k < n.val → b.written k)

include hw

/-- The last recorded edge is there to be measured from (R84). -/
theorem statusRef_ok {c : Fin 85} (hc : b.count = .val c) : ∃ ref, statusRef b c = .ok ref := by
  unfold statusRef
  split
  · exact ⟨_, rfl⟩
  · have hlt := c.isLt
    obtain ⟨e, he⟩ := tlRead_of_written (show c.val - 1 < 84 by omega) (hw c hc _ (by omega))
    exact ⟨e.ts, by simp only [he]⟩

/-- The slots below the cursor being written, the status function answers (R84). -/
theorem statusFn_ne_error (n : Nat) : statusFn cfg b n ≠ .error f := by
  unfold statusFn
  split
  · exact nofun
  · rename_i c hc
    obtain ⟨ref, href⟩ := statusRef_ok hw hc
    simp only [href]
    split <;> exact nofun

end Status

section Decode

variable {b : Block} (hw : ∀ k, k < Config.capacity → b.written k)

include hw

theorem decodeBits_ne_error {off k i : Nat} {v : Byte} (hlt : off + 2 * (i + k) < Config.capacity) :
    decodeBits cfg b.tl off k i v ≠ .error f := by
  induction k generalizing i v with
  | zero => exact nofun
  | succ k ih =>
    obtain ⟨e0, h0⟩ := tlRead_of_written (i := off + 2 * i) (by omega) (hw _ (by omega))
    obtain ⟨e1, h1⟩ := tlRead_of_written (i := off + 2 * i + 1) (by omega) (hw _ (by omega))
    obtain ⟨e2, h2⟩ := tlRead_of_written (i := off + 2 * i + 2) (by omega) (hw _ (by omega))
    simp only [decodeBits, readBit, h0, h1, h2]
    split
    · rename_i hx; cases hx
    · exact nofun
    · exact ih (by omega)

theorem decodeByte_ne_error {off : Nat} (hlt : off + 16 < Config.capacity) :
    decodeByte cfg b.tl off ≠ .error f :=
  decodeBits_ne_error hw hlt

/-- A timeline with every slot written decodes, to a reading or to a failure (R101). -/
theorem decodeFn_ne_error : decodeFn cfg b.tl ≠ .error f := by
  unfold decodeFn
  split
  · rename_i hx; exact absurd hx (decodeByte_ne_error hw (by decide))
  · exact nofun
  · split
    · rename_i hx; exact absurd hx (decodeByte_ne_error hw (by decide))
    · exact nofun
    · split
      · rename_i hx; exact absurd hx (decodeByte_ne_error hw (by decide))
      · exact nofun
      · exact nofun

end Decode

/-- An instance that meets the invariant gives no action a fault (R38 item 3). -/
theorem actionStep_ne_fault {a : Action} {s : State} (h : ∀ d, s.dev? = some d → d.Inv s.cfg) :
    actionStep a s ≠ .fault f := by
  intro hf
  obtain ⟨d, hd, hs | ⟨hc, hdec⟩⟩ := actionStep_fault_cases hf
  · exact statusFn_ne_error (h d hd).below_written _ hs
  · exact decodeFn_ne_error (fun k hk => (h d hd).below_written 84 hc k hk) hdec

end Faults

end Sys2Proof.Machine

namespace Sys2Proof.Proofs

open Sys2Proof.Machine

/-- Settles O44, transition by transition of the instance that steps. -/
theorem stepKeepsInv : Obligations.StepKeepsInv := by
  intro s t hinv hstep
  obtain ⟨-, rfl⟩ | ⟨ev, rest, d, d', c, -, hd, hc, ht, rfl⟩ := step_next_cases hstep
  · exact hinv
  · exact hinv.begin_putDev ev rest
      (ht.keeps_inv ((hinv.dev hd).advance ev.dt) fun _ _ he => Action.causes_edge_ts_lt (he ▸ hc))

/-- Settles O45: only slots below the cursor are read, and those are written. -/
theorem invNeverFaults : Obligations.InvNeverFaults := by
  intro s f hinv hstep
  cases hs : s.script with
  | nil => simp [step, takeStep, hs] at hstep
  | cons ev rest =>
    rw [step_cons hs] at hstep
    refine actionStep_ne_fault (fun x hx => ?_) hstep
    rw [State.begin_dev?] at hx
    obtain ⟨d, hd, rfl⟩ := Option.map_eq_some_iff.mp hx
    exact (hinv.dev hd).advance ev.dt

end Sys2Proof.Proofs

/-! SUPPORT. Proofs of the claims about the state (10_state.md): which steps write each element of the record of
R20. -/

namespace Sys2Proof.Machine

open Sys2Proof.Claims

/-! ### The draw and its cause -/

theorem runs_iff_causes {s : State} {ev : Event} {i : Instr} :
    Runs s ev i ↔ ev.act.causes s.cfg (.instr i) := by
  constructor
  · rintro ⟨w, hact, hw⟩
    rw [hact]
    exact .port hw
  · intro h
    generalize hact : ev.act = a at h
    cases h with
    | port hw => exact ⟨_, hact, hw⟩

@[simp] theorem Action.causes_release_iff {cfg : Params} {a : Action} :
    a.causes cfg .release ↔ a = .release :=
  ⟨fun h => by cases h; rfl, fun h => h ▸ .release⟩

@[simp] theorem Action.causes_poll_iff {cfg : Params} {a : Action} : a.causes cfg .poll ↔ a = .poll :=
  ⟨fun h => by cases h; rfl, fun h => h ▸ .poll⟩

@[simp] theorem Action.causes_wake_iff {cfg : Params} {a : Action} : a.causes cfg .wake ↔ a = .wake :=
  ⟨fun h => by cases h; rfl, fun h => h ▸ .wake⟩

/-- An action stands for one operation or step at most. -/
theorem Action.causes_unique {cfg : Params} {a : Action} {c c' : Cause} (h : a.causes cfg c)
    (h' : a.causes cfg c') : c = c' := by
  cases h with
  | port hw =>
    cases h' with
    | port hw' => cases hw.symm.trans hw'; rfl
  | release => cases h'; rfl
  | poll => cases h'; rfl
  | wake => cases h'; rfl

/-- The stepping instance makes one of the transitions, by what its draw stands for. -/
theorem stepsTo_trans {s t : State} {ev : Event} {d d' : Device} (h : StepsTo s t ev d d') :
    ∃ c, ev.act.causes s.cfg c ∧ Trans s.cfg ev.dev (d.advance ev.dt) c d' := by
  obtain ⟨hstep, hhead, hd, hd'⟩ := h
  obtain ⟨hnil, -⟩ | ⟨ev₁, rest, d₁, d₂, c, hs, hd₁, hc, ht, rfl⟩ := step_next_cases hstep
  · rw [hnil] at hhead; cases hhead
  · rw [hs] at hhead; cases hhead
    cases hd.symm.trans hd₁
    rw [begin_putDev_devices, if_pos rfl, hd] at hd'
    cases hd'
    exact ⟨c, hc, ht⟩

/-! ### What the engine's shared steps leave alone -/

section Frames

variable {cfg : Params} {k : Nat} {d d' : Device}

/-- GET_DATA's body writes the reading and `data_valid` alone of the block (R91, R102). -/
theorem getDataBody_frame {st : Status} (h : getDataBody cfg k d = .ok (st, d')) :
    d'.blk = { d.blk with reading := d'.blk.reading, dataValid := d'.blk.dataValid } := by
  rcases getDataBody_ok_cases h with ⟨-, -, rfl⟩ | ⟨-, r, -, -, rfl⟩ | ⟨-, -, rfl⟩ <;> rfl

/-- GET_DATA's body leaves the reading alone, or has decoded a complete timeline: the reading is valid only if
the response to come is OK, and its decimal bytes are then 0 (R91, R93, R102). -/
theorem getDataBody_reading_cases {st : Status} (h : getDataBody cfg k d = .ok (st, d')) :
    (d'.blk.reading = d.blk.reading ∧ d'.blk.dataValid = d.blk.dataValid) ∨
    (d.blk.count = .val 84 ∧ (d'.blk.dataValid = false ∨
      (d'.responses ++ [st] = d.responses ++ [.ok] ∧
        d'.blk.reading.humDec = 0 ∧ d'.blk.reading.tmpDec = 0))) := by
  rcases getDataBody_ok_cases h with ⟨-, -, rfl⟩ | ⟨hc, r, hd, rfl, rfl⟩ | ⟨hc, -, rfl⟩
  · exact .inl ⟨rfl, rfl⟩
  · obtain ⟨hhum, htmp, -⟩ := decodeFn_ok_reading hd
    exact .inr ⟨hc, .inr ⟨rfl, hhum, htmp⟩⟩
  · exact .inr ⟨hc, .inl rfl⟩

/-- An acknowledge that has been seen changes the sequencer state alone (R83). -/
theorem ackPollEffect_seen_frame (h : d.blk.count ≠ .val 0) :
    (ackPollEffect d).blk =
      d.blk.enter (ackPollEffect d).blk.phase (ackPollEffect d).blk.cur := by
  rcases ackPollEffect_of_seen h with ⟨-, heq⟩ | ⟨-, heq⟩ | ⟨-, heq⟩ <;> rw [heq] <;> rfl

/-- ACK_POLL writes nothing but `armed`, the cursor and the sequencer state (R83). -/
theorem ackPollEffect_frame (d : Device) :
    (ackPollEffect d).blk = { d.blk with
      armed := (ackPollEffect d).blk.armed, count := (ackPollEffect d).blk.count
      phase := (ackPollEffect d).blk.phase, cur := (ackPollEffect d).blk.cur } := by
  by_cases hz : d.blk.count = .val 0
  · rw [ackPollEffect_of_zero hz]; rfl
  · rcases ackPollEffect_of_seen hz with ⟨-, heq⟩ | ⟨-, heq⟩ | ⟨-, heq⟩ <;> rw [heq] <;> rfl

end Frames

/-! ### Element by element: everything a transition can do to it -/

section Writers

variable {cfg : Params} {k : Nat} {d d' : Device} {c : Cause}

/-- `armed` (R27). -/
theorem Trans.armed_cases (h : Trans cfg k d c d') :
    d'.blk.armed = d.blk.armed ∨
    (d'.blk.armed = true ∧ (c = .instr .startRead ∨ c = .instr .read)) ∨
    (d'.blk.armed = false ∧ (c = .instr .abortRead ∨
      (c = .poll ∧ d.blk.phase = .awaitAck ∧ d.blk.count = .val 0 ∧
        d'.responses = d.responses ++ [.errTimeout]))) := by
  cases h with
  | startRead => exact .inr (.inl ⟨rfl, .inl rfl⟩)
  | read => exact .inr (.inl ⟨rfl, .inr rfl⟩)
  | abortRead => exact .inr (.inr ⟨rfl, .inl rfl⟩)
  | getData _ hb => exact .inl (congrArg Block.armed (getDataBody_frame hb) :)
  | wake _ _ hb => exact .inl (congrArg Block.armed (getDataBody_frame hb) :)
  | poll hp =>
    by_cases hz : d.blk.count = .val 0
    · rw [ackPollEffect_of_zero hz]
      exact .inr (.inr ⟨rfl, .inr ⟨rfl, hp, hz, rfl⟩⟩)
    · exact .inl (congrArg Block.armed (ackPollEffect_seen_frame hz) :)
  | _ => exact .inl rfl

/-- The completion latch (R29, R76). -/
theorem Trans.latch_cases (h : Trans cfg k d c d') :
    d'.blk.completePending = d.blk.completePending ∨
    (d'.blk.completePending = true ∧ (∃ lvl ts, c = .instr (.edge lvl ts)) ∧
      d.blk.count = .val 83 ∧ d'.blk.count = .val 84) ∨
    (d'.blk.completePending = false ∧ (c = .instr .startRead ∨ c = .instr .read ∨
      (c = .wake ∧ d.blk.phase = .waitComplete))) := by
  cases h with
  | startRead => exact .inr (.inr ⟨rfl, .inl rfl⟩)
  | read => exact .inr (.inr ⟨rfl, .inr (.inl rfl)⟩)
  | getData _ hb => exact .inl (congrArg Block.completePending (getDataBody_frame hb) :)
  | wake hp _ hb =>
    exact .inr (.inr ⟨(congrArg Block.completePending (getDataBody_frame hb) :), .inr (.inr ⟨rfl, hp⟩)⟩)
  | poll => exact .inl (congrArg Block.completePending (ackPollEffect_frame d) :)
  | @edgeRecorded _ _ n _ _ hn _ =>
    by_cases hlast : n.val = 83
    · cases (Fin.ext hlast : n = 83)
      exact .inr (.inl ⟨Bool.or_true _, ⟨_, _, rfl⟩, hn, rfl⟩)
    · exact .inl (by simp [Block.appended, hlast])
  | _ => exact .inl rfl

/-- An EDGE leaves the instance as it is, or appends to its timeline (R70, R77). -/
theorem Trans.edge_cases {lvl : Level} {ts : Nat} (h : Trans cfg k d (.instr (.edge lvl ts)) d') :
    d' = d ∨ ∃ (n : Fin 85) (hlt : n.val < Config.capacity),
      d.blk.count = .val n ∧ d' = { d with blk := d.blk.appended ⟨ts, lvl⟩ n hlt } := by
  cases h with
  | edgeDiscarded => exact .inl rfl
  | edgeRecorded hlt _ hn _ => exact .inr ⟨_, hlt, hn, rfl⟩

/-- The timeline and its cursor, by any step but an EDGE (R35). -/
theorem Trans.timeline_cases (h : Trans cfg k d c d') (hne : ∀ lvl ts, c ≠ .instr (.edge lvl ts)) :
    d'.blk.tl = d.blk.tl ∧
    (d'.blk.count = d.blk.count ∨
      (d'.blk.count = .sentinel ∧ (c = .instr .startRead ∨ c = .instr .read ∨ c = .instr .abortRead ∨
        (c = .poll ∧ d.blk.count = .val 0))) ∨
      (d'.blk.count = .val 0 ∧ c = .release ∧ d.blk.phase = .startLow)) := by
  cases h with
  | startRead => exact ⟨rfl, .inr (.inl ⟨rfl, .inl rfl⟩)⟩
  | read => exact ⟨rfl, .inr (.inl ⟨rfl, .inr (.inl rfl)⟩)⟩
  | abortRead => exact ⟨rfl, .inr (.inl ⟨rfl, .inr (.inr (.inl rfl))⟩)⟩
  | release hp => exact ⟨rfl, .inr (.inr ⟨rfl, rfl, hp⟩)⟩
  | getData _ hb =>
    have hframe := getDataBody_frame hb
    exact ⟨(congrArg Block.tl hframe :), .inl (congrArg Block.count hframe :)⟩
  | wake _ _ hb =>
    have hframe := getDataBody_frame hb
    exact ⟨(congrArg Block.tl hframe :), .inl (congrArg Block.count hframe :)⟩
  | poll =>
    refine ⟨(congrArg Block.tl (ackPollEffect_frame d) :), ?_⟩
    by_cases hz : d.blk.count = .val 0
    · rw [ackPollEffect_of_zero hz]
      exact .inr (.inl ⟨rfl, .inr (.inr (.inr ⟨rfl, hz⟩))⟩)
    · exact .inl (congrArg Block.count (ackPollEffect_seen_frame hz) :)
  | edgeDiscarded => exact absurd rfl (hne _ _)
  | edgeRecorded => exact absurd rfl (hne _ _)
  | _ => exact ⟨rfl, .inl rfl⟩

/-- Only START_RELEASE brings `count` to 0 (R82): an edge takes it to 1 at least. -/
theorem Trans.release_of_zero (h : Trans cfg k d c d') (hne : d.blk.count ≠ .val 0)
    (hz : d'.blk.count = .val 0) : c = .release ∧ d.blk.phase = .startLow := by
  by_cases hedge : ∃ lvl ts, c = .instr (.edge lvl ts)
  · obtain ⟨lvl, ts, rfl⟩ := hedge
    obtain rfl | ⟨n, hlt, -, rfl⟩ := h.edge_cases
    · exact absurd hz hne
    · exact absurd (congrArg Fin.val (Count.val.inj hz)) (Nat.succ_ne_zero _)
  · obtain ⟨-, heq | ⟨hsent, -⟩ | ⟨-, hrel⟩⟩ :=
      h.timeline_cases fun lvl ts he => hedge ⟨lvl, ts, he⟩
    · exact absurd (heq.symm.trans hz) hne
    · exact absurd (hsent.symm.trans hz) nofun
    · exact hrel

/-- The line's direction and level (R34). -/
theorem Trans.line_cases (h : Trans cfg k d c d') :
    (d'.blk.lineDir = d.blk.lineDir ∧ d'.blk.lineDrv = d.blk.lineDrv) ∨
    c = .instr .startRead ∨ c = .instr .read ∨ (c = .release ∧ d.blk.phase = .startLow) := by
  cases h with
  | startRead => exact .inr (.inl rfl)
  | read => exact .inr (.inr (.inl rfl))
  | release hp => exact .inr (.inr (.inr ⟨rfl, hp⟩))
  | getData _ hb =>
    have hframe := getDataBody_frame hb
    exact .inl ⟨(congrArg Block.lineDir hframe :), (congrArg Block.lineDrv hframe :)⟩
  | wake _ _ hb =>
    have hframe := getDataBody_frame hb
    exact .inl ⟨(congrArg Block.lineDir hframe :), (congrArg Block.lineDrv hframe :)⟩
  | poll =>
    have hframe := ackPollEffect_frame d
    exact .inl ⟨(congrArg Block.lineDir hframe :), (congrArg Block.lineDrv hframe :)⟩
  | _ => exact .inl ⟨rfl, rfl⟩

/-- The reading and `data_valid` (R30 to R32, R102). -/
theorem Trans.reading_cases (h : Trans cfg k d c d') :
    (d'.blk.reading = d.blk.reading ∧
      (d'.blk.dataValid = d.blk.dataValid ∨ d'.blk.dataValid = false)) ∨
    (d.blk.count = .val 84 ∧ (c = .instr .getData ∨ c = .wake) ∧
      (d'.blk.dataValid = false ∨ (d'.responses = d.responses ++ [.ok] ∧
        d'.blk.reading.humDec = 0 ∧ d'.blk.reading.tmpDec = 0))) := by
  cases h with
  | startRead => exact .inl ⟨rfl, .inr rfl⟩
  | read => exact .inl ⟨rfl, .inr rfl⟩
  | getData _ hb =>
    exact (getDataBody_reading_cases hb).imp (And.imp_right .inl) fun ⟨hc, hres⟩ => ⟨hc, .inl rfl, hres⟩
  | wake _ _ hb =>
    exact (getDataBody_reading_cases hb).imp (And.imp_right .inl) fun ⟨hc, hres⟩ => ⟨hc, .inr rfl, hres⟩
  | poll =>
    have hframe := ackPollEffect_frame d
    exact .inl ⟨(congrArg Block.reading hframe :), .inl (congrArg Block.dataValid hframe :)⟩
  | _ => exact .inl ⟨rfl, .inl rfl⟩

/-- `arm_ts` (R28). -/
theorem Trans.armTs_cases (h : Trans cfg k d c d') :
    d'.blk.armTs = d.blk.armTs ∨ (c = .release ∧ d.blk.phase = .startLow) := by
  cases h with
  | release hp => exact .inr ⟨rfl, hp⟩
  | getData _ hb => exact .inl (congrArg Block.armTs (getDataBody_frame hb) :)
  | wake _ _ hb => exact .inl (congrArg Block.armTs (getDataBody_frame hb) :)
  | poll => exact .inl (congrArg Block.armTs (ackPollEffect_frame d) :)
  | _ => exact .inl rfl

/-- RELEASE in START_LOW is START_RELEASE (R82). -/
theorem Trans.eq_releaseLine (h : Trans cfg k d .release d') (hp : d.blk.phase = .startLow) :
    d' = releaseLine cfg d := by
  cases h with
  | release => rfl
  | releaseHeld hne => exact absurd hp hne

end Writers

end Sys2Proof.Machine

namespace Sys2Proof.Proofs

open Sys2Proof.Machine Sys2Proof.Claims

/-- The transition's cause, as the claims name it. -/
theorem runs_of_cause {s : State} {ev : Event} {c : Cause} {i : Instr} (hc : ev.act.causes s.cfg c)
    (h : c = .instr i) : Runs s ev i :=
  runs_iff_causes.mpr (h ▸ hc)

/-- Settles O51, from everything a step can do to `armed`. -/
theorem armedWrittenBy : Obligations.ArmedWrittenBy := by
  intro s t ev d d' h
  obtain ⟨c, hc, ht⟩ := stepsTo_trans h
  have hcases := ht.armed_cases
  constructor
  · intro h0 h1
    rcases hcases with heq | ⟨-, hstart⟩ | ⟨hfalse, -⟩
    · exact absurd (h1.symm.trans (heq.trans h0)) nofun
    · exact hstart.imp (runs_of_cause hc) (runs_of_cause hc)
    · exact absurd (h1.symm.trans hfalse) nofun
  · intro h1 h0
    rcases hcases with heq | ⟨htrue, -⟩ | ⟨-, habort | ⟨rfl, htimeout⟩⟩
    · exact absurd (h0.symm.trans (heq.trans h1)) nofun
    · exact absurd (h0.symm.trans htrue) nofun
    · exact .inl (runs_of_cause hc habort)
    · exact .inr ⟨Action.causes_poll_iff.mp hc, htimeout⟩

/-- Settles O52, from everything a step can do to the latch. -/
theorem latchWrittenBy : Obligations.LatchWrittenBy := by
  intro s t ev d d' h
  obtain ⟨c, hc, ht⟩ := stepsTo_trans h
  have hcases := ht.latch_cases
  refine ⟨fun h0 h1 => ?_, ?_, fun h1 h0 => ?_⟩
  · rcases hcases with heq | ⟨-, ⟨lvl, ts, hedge⟩, hcounts⟩ | ⟨hfalse, -⟩
    · exact absurd (h1.symm.trans (heq.trans h0)) nofun
    · exact ⟨⟨lvl, ts, runs_of_cause hc hedge⟩, hcounts⟩
    · exact absurd (h1.symm.trans hfalse) nofun
  · rintro ⟨lvl, ts, hruns⟩ h83 h84
    cases Action.causes_unique hc (runs_iff_causes.mp hruns)
    obtain rfl | ⟨n, hlt, hn, rfl⟩ := ht.edge_cases
    · exact absurd (h83.symm.trans h84) (by decide)
    · cases h83.symm.trans hn
      exact Bool.or_true _
  · rcases hcases with heq | ⟨htrue, -⟩ | ⟨-, hstart | hread | ⟨rfl, hwait⟩⟩
    · exact absurd (h0.symm.trans (heq.trans h1)) nofun
    · exact absurd (h0.symm.trans htrue) nofun
    · exact .inl (runs_of_cause hc hstart)
    · exact .inr (.inl (runs_of_cause hc hread))
    · exact .inr (.inr ⟨Action.causes_wake_iff.mp hc, hwait⟩)

/-- The draw is no edge event when its transition is none. -/
theorem cause_ne_edge {s : State} {ev : Event} {c : Cause} (hc : ev.act.causes s.cfg c)
    (h : ¬ RunsEdge s ev) (lvl : Level) (ts : Nat) : c ≠ .instr (.edge lvl ts) :=
  fun he => h ⟨lvl, ts, runs_of_cause hc he⟩

/-- Settles O53: an EDGE is discarded or appended at the cursor, and no other step writes a slot. -/
theorem whoWritesTheTimeline : Obligations.WhoWritesTheTimeline := by
  intro s t ev d d' h
  obtain ⟨c, hc, ht⟩ := stepsTo_trans h
  constructor
  · rintro ⟨lvl, ts, hruns⟩
    cases Action.causes_unique hc (runs_iff_causes.mp hruns)
    obtain rfl | ⟨n, hlt, hn, rfl⟩ := ht.edge_cases
    · exact ⟨rfl, fun _ _ => rfl⟩
    · exact ⟨rfl, fun k hk => Memory.get?_set_other _ _ (hk n hn)⟩
  · intro hne
    obtain ⟨htl, hcount⟩ := ht.timeline_cases (cause_ne_edge hc hne)
    exact ⟨htl, hcount.imp id (Or.imp And.left And.left)⟩

/-- Settles O54, from O53: the one slot a step may write is the one at the cursor. -/
theorem capturedSlotsKept : Obligations.CapturedSlotsKept := by
  intro s t ev d d' c h hc k hk
  obtain ⟨hedge, hother⟩ := whoWritesTheTimeline s t ev d d' h
  by_cases hr : RunsEdge s ev
  · refine (hedge hr).2 k fun n hn => ?_
    cases hc.symm.trans hn
    exact Nat.ne_of_lt hk
  · rw [(hother hr).1]

/-- Settles O55: at 84 an edge is discarded, and the invariant has no RELEASE in START_LOW and no poll at
count 0 there. -/
theorem completeTimelineFrozen : Obligations.CompleteTimelineFrozen := by
  intro s t ev d d' hinv h h84 hstart hread habort
  obtain ⟨c, hc, ht⟩ := stepsTo_trans h
  by_cases hr : RunsEdge s ev
  · obtain ⟨lvl, ts, hruns⟩ := hr
    cases Action.causes_unique hc (runs_iff_causes.mp hruns)
    obtain rfl | ⟨n, hlt, hn, -⟩ := ht.edge_cases
    · exact ⟨rfl, h84⟩
    · cases h84.symm.trans hn
      exact absurd hlt (by decide)
  · obtain ⟨htl, heq | ⟨-, hs | hs | hs | ⟨-, hz⟩⟩ | ⟨-, -, hlow⟩⟩ :=
      ht.timeline_cases (cause_ne_edge hc hr)
    · exact ⟨htl, heq.trans h84⟩
    · exact absurd (runs_of_cause hc hs) hstart
    · exact absurd (runs_of_cause hc hs) hread
    · exact absurd (runs_of_cause hc hs) habort
    · exact absurd (h84.symm.trans hz) (by decide)
    · obtain ⟨-, -, -, hsent, -⟩ := (hinv.dev h.2.2.1).start_low hlow
      exact absurd (h84.symm.trans hsent) nofun

/-- Settles O57: the line by everything a step can do to it, the interrupt enable by O51. -/
theorem lineWrittenBy : Obligations.LineWrittenBy := by
  intro s t ev d d' h
  obtain ⟨harm, hdisarm⟩ := armedWrittenBy s t ev d d' h
  refine ⟨fun hne => ?_, harm, fun h1 h0 => ?_⟩
  · obtain ⟨c, hc, ht⟩ := stepsTo_trans h
    rcases ht.line_cases with ⟨hdir, hdrv⟩ | hstart | hread | ⟨rfl, hlow⟩
    · simp [Block.lineOutputs, hdir, hdrv] at hne
    · exact .inl (runs_of_cause hc hstart)
    · exact .inr (.inl (runs_of_cause hc hread))
    · exact .inr (.inr ⟨Action.causes_release_iff.mp hc, hlow⟩)
  · exact (hdisarm h1 h0).imp_right fun ⟨hpoll, hwait, hz, _⟩ => ⟨hpoll, hwait, hz⟩

/-- Settles O58, from everything a step can do to the reading. -/
theorem readingWrittenBy : Obligations.ReadingWrittenBy := by
  intro s t ev d d' h
  obtain ⟨c, hc, ht⟩ := stepsTo_trans h
  have hcases := ht.reading_cases
  constructor
  · intro hne
    rcases hcases with ⟨heq, -⟩ | ⟨h84, hget | rfl, -⟩
    · exact absurd heq hne
    · exact ⟨h84, .inl (runs_of_cause hc hget)⟩
    · exact ⟨h84, .inr (Action.causes_wake_iff.mp hc)⟩
  · intro h0 h1
    rcases hcases with ⟨-, heq | hfalse⟩ | ⟨-, -, hfalse | hok⟩
    · exact absurd (h1.symm.trans (heq.trans h0)) nofun
    · exact absurd (h1.symm.trans hfalse) nofun
    · exact absurd (h1.symm.trans hfalse) nofun
    · exact hok

end Sys2Proof.Proofs

/-! SUPPORT. Proofs of the claims about the state (10_state.md): that no step sees what nothing has written
(log entry 6). -/

namespace Sys2Proof.Machine

/-- The block with other values in what may be unwritten: `arm_ts` and the reading. -/
def Block.withUnseen (a : Nat) (r : Reading) (b : Block) : Block := { b with armTs := a, reading := r }

@[simp] theorem Block.withUnseen_armed (a : Nat) (r : Reading) (b : Block) :
    (b.withUnseen a r).armed = b.armed := rfl

@[simp] theorem Block.withUnseen_count (a : Nat) (r : Reading) (b : Block) :
    (b.withUnseen a r).count = b.count := rfl

/-- Appending an edge neither sees nor writes `arm_ts` and the reading (R44, R77). -/
theorem appendEdge_withUnseen (x : Edge) (c : Fin 85) (b : Block) (a : Nat) (r : Reading) :
    appendEdge x c (b.withUnseen a r) = (appendEdge x c b).map (Block.withUnseen a r) := by
  by_cases h : c.val < Config.capacity
  · rw [appendEdge_of_lt _ _ h, appendEdge_of_lt _ _ h]; rfl
  · rw [appendEdge_of_full _ _ h, appendEdge_of_full _ _ h]; rfl

/-- Recording an edge neither sees nor writes `arm_ts` and the reading (R70, R77). -/
theorem recordEdge_withUnseen (x : Edge) (b : Block) (a : Nat) (r : Reading) :
    recordEdge x (b.withUnseen a r) = (recordEdge x b).map (Block.withUnseen a r) := by
  cases ha : b.armed with
  | false => simp only [recordEdge, Block.withUnseen_armed, ha, Bool.false_eq_true, if_false]; rfl
  | true =>
    simp only [recordEdge, Block.withUnseen_armed, Block.withUnseen_count, ha, if_true]
    cases b.count with
    | sentinel => rfl
    | val c =>
      by_cases hz : c.val = 0
      · simp only [if_pos hz]
        cases x.lvl with
        | low => exact appendEdge_withUnseen x c b a r
        | high => rfl
      · simp only [if_neg hz]
        exact appendEdge_withUnseen x c b a r

end Sys2Proof.Machine

namespace Sys2Proof.Claims

open Sys2Proof.Machine

/-! ### Steps do not see what nothing has written -/

section Unseen

variable {cfg : Params} {k : Nat} {d e : Device}

theorem SameButUnseen.tl (h : SameButUnseen d e) : e.blk.tl = d.blk.tl := by
  obtain ⟨x, r, rfl, -, -⟩ := h; rfl

theorem SameButUnseen.count (h : SameButUnseen d e) : e.blk.count = d.blk.count := by
  obtain ⟨x, r, rfl, -, -⟩ := h; rfl

theorem SameButUnseen.phase (h : SameButUnseen d e) : e.blk.phase = d.blk.phase := by
  obtain ⟨x, r, rfl, -, -⟩ := h; rfl

theorem SameButUnseen.cur (h : SameButUnseen d e) : e.blk.cur = d.blk.cur := by
  obtain ⟨x, r, rfl, -, -⟩ := h; rfl

theorem SameButUnseen.releaseEnabled_eq (h : SameButUnseen d e) :
    releaseEnabled e.blk = releaseEnabled d.blk := by
  obtain ⟨x, r, rfl, -, -⟩ := h; rfl

theorem SameButUnseen.wakeEnabled_eq (h : SameButUnseen d e) :
    wakeEnabled e.blk = wakeEnabled d.blk := by
  obtain ⟨x, r, rfl, -, -⟩ := h; rfl

theorem SameButUnseen.advance (h : SameButUnseen d e) (dt : Nat) :
    SameButUnseen (d.advance dt) (e.advance dt) := by
  obtain ⟨x, r, rfl, hx, hr⟩ := h
  exact ⟨x, r, rfl, hx, hr⟩

theorem SameButUnseen.respond (h : SameButUnseen d e) (st : Status) :
    SameButUnseen (d.respond st) (e.respond st) := by
  obtain ⟨x, r, rfl, hx, hr⟩ := h
  exact ⟨x, r, rfl, hx, hr⟩

theorem SameButUnseen.consume (h : SameButUnseen d e) :
    SameButUnseen (d.mapBlk Block.consume) (e.mapBlk Block.consume) := by
  obtain ⟨x, r, rfl, hx, hr⟩ := h
  exact ⟨x, r, rfl, hx, hr⟩

theorem SameButUnseen.enter (h : SameButUnseen d e) (p : Phase) (q : Cur) :
    SameButUnseen (d.mapBlk (Block.enter p q)) (e.mapBlk (Block.enter p q)) := by
  obtain ⟨x, r, rfl, hx, hr⟩ := h
  exact ⟨x, r, rfl, hx, hr⟩

theorem SameButUnseen.finish (h : SameButUnseen d e) (st : Status) :
    SameButUnseen (d.finish st) (e.finish st) :=
  (h.respond st).enter .idle .none

theorem SameButUnseen.abort (h : SameButUnseen d e) :
    SameButUnseen (d.mapBlk Block.abort) (e.mapBlk Block.abort) := by
  obtain ⟨x, r, rfl, -, hr⟩ := h
  exact ⟨x, r, rfl, fun hc => absurd rfl hc, hr⟩

/-- START_BEGIN makes both unseen: `count` is SENTINEL, `data_valid` 0 (R81). -/
theorem SameButUnseen.startBegin (h : SameButUnseen d e) (op : Cur) :
    SameButUnseen (startBegin cfg op d) (startBegin cfg op e) := by
  obtain ⟨x, r, rfl, -, -⟩ := h
  exact ⟨x, r, rfl, fun hc => absurd rfl hc, nofun⟩

/-- START_RELEASE writes `arm_ts` as it makes `count` 0 (R82). -/
theorem SameButUnseen.releaseLine (h : SameButUnseen d e) :
    SameButUnseen (releaseLine cfg d) (releaseLine cfg e) := by
  obtain ⟨x, r, rfl, -, hr⟩ := h
  exact ⟨d.now cfg, r, rfl, fun _ => rfl, hr⟩

theorem SameButUnseen.ackPollEffect (h : SameButUnseen d e) :
    SameButUnseen (ackPollEffect d) (ackPollEffect e) := by
  by_cases hz : d.blk.count = .val 0
  · rw [ackPollEffect_of_zero hz, ackPollEffect_of_zero (h.count.trans hz)]
    exact h.abort.finish .errTimeout
  · simp only [Machine.ackPollEffect, h.count, h.cur, if_neg hz]
    cases d.blk.cur with
    | read => exact h.enter .waitComplete .read
    | startRead => exact h.finish .ok
    | none => exact h

/-- The status function looks at `arm_ts` only when `count` is 0 (R84). -/
theorem SameButUnseen.statusFn_eq (h : SameButUnseen d e) :
    statusFn cfg e.blk (e.now cfg) = statusFn cfg d.blk (d.now cfg) := by
  obtain ⟨x, r, rfl, hx, -⟩ := h
  cases hc : d.blk.count with
  | sentinel => simp only [Machine.statusFn, hc]
  | val n => rw [hx (by simp [hc])]; rfl

/-- So does the acknowledge poll (R83). -/
theorem SameButUnseen.pollActs_eq (h : SameButUnseen d e) :
    pollActs cfg e.blk (e.now cfg) = pollActs cfg d.blk (d.now cfg) := by
  obtain ⟨x, r, rfl, hx, -⟩ := h
  cases hc : d.blk.count with
  | sentinel => simp only [Machine.pollActs, hc]
  | val n => rw [hx (by simp [hc])]; rfl

/-- GET_DATA's body overwrites the whole reading or leaves it alone (R91, R102). -/
theorem SameButUnseen.getDataBody_ok (h : SameButUnseen d e) {st : Status} {d' : Device}
    (hb : getDataBody cfg k d = .ok (st, d')) :
    ∃ e', getDataBody cfg k e = .ok (st, e') ∧ SameButUnseen d' e' := by
  rcases getDataBody_ok_cases hb with ⟨hc, hs, rfl⟩ | ⟨hc, r, hd, rfl, rfl⟩ | ⟨hc, hd, rfl⟩
  · exact ⟨e, getDataBody_of_not_full (h.count ▸ hc) (h.statusFn_eq.trans hs), h⟩
  · refine ⟨_, getDataBody_full (h.count.trans hc) (h.tl ▸ hd), ?_⟩
    obtain ⟨x, -, rfl, hx, -⟩ := h
    exact ⟨x, r, rfl, hx, fun _ => rfl⟩
  · refine ⟨_, getDataBody_full (h.count.trans hc) (h.tl ▸ hd), ?_⟩
    obtain ⟨x, -, rfl, hx, -⟩ := h
    exact ⟨x, _, rfl, hx, fun _ => rfl⟩

/-- An edge is recorded alike whatever `arm_ts` and the reading hold, and what was unseen stays so (R70). -/
theorem SameButUnseen.recordEdge_ok (h : SameButUnseen d e) (x : Edge) {b : Block}
    (hb : recordEdge x d.blk = .ok b) :
    ∃ b', recordEdge x e.blk = .ok b' ∧ SameButUnseen { d with blk := b } { e with blk := b' } := by
  obtain ⟨a, r, rfl, hx, hr⟩ := h
  refine ⟨b.withUnseen a r, (recordEdge_withUnseen x d.blk a r).trans (by rw [hb]; rfl), ?_⟩
  rcases recordEdge_cases x d.blk with hrec | ⟨c, hlt, -, hc, -, hrec⟩
  · cases hb.symm.trans hrec
    exact ⟨a, r, rfl, hx, hr⟩
  · cases hb.symm.trans hrec
    exact ⟨a, r, rfl, fun _ => hx (by simp [hc]), hr⟩

/-- A step function of the instance that does not see what nothing has written. -/
def Unseeing (f : Device → Except Fault Device) : Prop :=
  ∀ d e d', SameButUnseen d e → f d = .ok d' → ∃ e', f e = .ok e' ∧ SameButUnseen d' e'

theorem Unseeing.of_total {g : Device → Device}
    (h : ∀ d e, SameButUnseen d e → SameButUnseen (g d) (g e)) : Unseeing fun d => .ok (g d) := by
  rintro d e d' hde ⟨⟩
  exact ⟨g e, rfl, h d e hde⟩

/-- Two steps, each of its own machine, of instances that differ at most in what nothing has written. -/
def StepAlike (s u : State) (x y : StepResult) : Prop :=
  ∀ t, x = .next t → ∃ d' e', t = s.putDev d' ∧ y = .next (u.putDev e') ∧ SameButUnseen d' e'

section Reach

variable {s u : State} (hd : s.dev? = some d) (he : u.dev? = some e) (h : SameButUnseen d e)
  {f : Device → Except Fault Device} (hf : Unseeing f)

include hd he h hf

theorem onDevice_stepAlike : StepAlike s u (onDevice s f) (onDevice u f) := by
  intro t ht
  obtain ⟨x, d', hx, hok, rfl⟩ := onDevice_next_iff.mp ht
  cases hd.symm.trans hx
  obtain ⟨e', hok', hde⟩ := hf d e d' h hok
  exact ⟨d', e', rfl, onDevice_next_iff.mpr ⟨e, e', he, hok', rfl⟩, hde⟩

theorem accept_stepAlike : StepAlike s u (accept s f) (accept u f) := by
  intro t ht
  obtain ⟨x, d', hx, hp, hok, rfl⟩ := accept_next_iff.mp ht
  cases hd.symm.trans hx
  obtain ⟨e', hok', hde⟩ := hf d e d' h hok
  exact ⟨d', e', rfl, accept_next_iff.mpr ⟨e, e', he, h.phase.trans hp, hok', rfl⟩, hde⟩

end Reach

end Unseen

/-! ### Operation by operation, on two instances that differ at most in what nothing has written -/

section Operations

variable {s u : State} (hcfg : u.cfg = s.cfg) {d e : Device} (hd : s.dev? = some d)
  (he : u.dev? = some e) (h : SameButUnseen d e)

include hd he h

theorem execAbortRead_stepAlike : StepAlike s u (execAbortRead s) (execAbortRead u) :=
  accept_stepAlike hd he h (.of_total fun _ _ hde => hde.abort.respond _)

theorem execEdge_stepAlike (lvl : Level) (ts : Nat) :
    StepAlike s u (execEdge lvl ts s) (execEdge lvl ts u) := by
  refine onDevice_stepAlike hd he h fun d e d' hde hok => ?_
  split at hok
  · rename_i hb
    obtain ⟨b', hb', hde'⟩ := hde.recordEdge_ok _ hb
    cases hok
    simp only [hb']
    exact ⟨_, rfl, hde'⟩
  · cases hok

include hcfg

theorem execStartRead_stepAlike : StepAlike s u (execStartRead s) (execStartRead u) := by
  simp only [execStartRead, hcfg]
  exact accept_stepAlike hd he h (.of_total fun _ _ hde => hde.startBegin _)

theorem execRead_stepAlike : StepAlike s u (execRead s) (execRead u) := by
  simp only [execRead, hcfg]
  exact accept_stepAlike hd he h (.of_total fun _ _ hde => hde.startBegin _)

theorem execCheckStatus_stepAlike : StepAlike s u (execCheckStatus s) (execCheckStatus u) := by
  simp only [execCheckStatus, hcfg]
  refine accept_stepAlike hd he h fun d e d' hde hok => ?_
  simp only [hde.statusFn_eq] at hok ⊢
  split at hok
  · cases hok; exact ⟨_, rfl, hde.respond _⟩
  · cases hok

theorem startRelease_stepAlike : StepAlike s u (startRelease s) (startRelease u) := by
  simp only [startRelease, hcfg]
  refine onDevice_stepAlike hd he h (.of_total fun d e hde => ?_)
  simp only [hde.releaseEnabled_eq]
  split
  · exact hde.releaseLine
  · exact hde

theorem ackPoll_stepAlike : StepAlike s u (ackPoll s) (ackPoll u) := by
  simp only [ackPoll, hcfg]
  refine onDevice_stepAlike hd he h fun d e d' hde hok => ?_
  simp only [hde.phase, hde.pollActs_eq] at hok ⊢
  cases hp : d.blk.phase with
  | awaitAck =>
    rw [hp] at hok
    cases hok
    refine ⟨_, rfl, ?_⟩
    split
    · exact hde.ackPollEffect
    · exact hde
  | _ => rw [hp] at hok; cases hok; exact ⟨_, rfl, hde⟩

variable (hsel : u.sel = s.sel)

include hsel

theorem execGetData_stepAlike : StepAlike s u (execGetData s) (execGetData u) := by
  simp only [execGetData, hcfg, hsel]
  refine accept_stepAlike hd he h fun d e d' hde hok => ?_
  split at hok
  · rename_i hb
    obtain ⟨e', hb', hde'⟩ := hde.getDataBody_ok hb
    cases hok
    simp only [hb']
    exact ⟨_, rfl, hde'.respond _⟩
  · cases hok

theorem waitDone_stepAlike : StepAlike s u (waitDone s) (waitDone u) := by
  simp only [waitDone, hcfg, hsel]
  refine onDevice_stepAlike hd he h fun d e d' hde hok => ?_
  simp only [hde.wakeEnabled_eq] at hok ⊢
  split at hok
  · rename_i hw
    split at hok
    · rename_i hb
      obtain ⟨e', hb', hde'⟩ := hde.consume.getDataBody_ok hb
      cases hok
      simp only [if_pos hw, hb']
      exact ⟨_, rfl, hde'.finish _⟩
    · cases hok
  · rename_i hw
    cases hok
    simp only [if_neg hw]
    exact ⟨_, rfl, hde⟩

/-- Whatever the action, it acts on the two instances alike. -/
theorem actionStep_stepAlike (a : Action) : StepAlike s u (actionStep a s) (actionStep a u) := by
  cases a with
  | port w =>
    simp only [actionStep, portStep, hcfg]
    cases decode s.cfg.tsWidth w with
    | error err => exact nofun
    | ok i =>
      cases i with
      | startRead => exact execStartRead_stepAlike hcfg hd he h
      | checkStatus => exact execCheckStatus_stepAlike hcfg hd he h
      | abortRead => exact execAbortRead_stepAlike hd he h
      | getData => exact execGetData_stepAlike hcfg hd he h hsel
      | read => exact execRead_stepAlike hcfg hd he h
      | edge lvl ts => exact execEdge_stepAlike hd he h lvl ts
  | release => exact startRelease_stepAlike hcfg hd he h
  | poll => exact ackPoll_stepAlike hcfg hd he h
  | wake => exact waitDone_stepAlike hcfg hd he h hsel

end Operations

end Sys2Proof.Claims

namespace Sys2Proof.Proofs

open Sys2Proof.Machine Sys2Proof.Claims

/-- Settles O59: who writes `arm_ts` and brings `count` to 0 by what a step can do to them, and the second
machine by the step's acting alike on the two instances. -/
theorem armTsWrittenBy : Obligations.ArmTsWrittenBy := by
  intro s t ev d d' h
  obtain ⟨c, hc, ht⟩ := stepsTo_trans h
  refine ⟨fun hne => ?_, fun hne hz => ?_, fun hrel hlow => ?_, fun u e hcfg hscript he hde => ?_⟩
  · obtain ⟨rfl, hlow⟩ := ht.armTs_cases.resolve_left hne
    exact ⟨Action.causes_release_iff.mp hc, hlow⟩
  · obtain ⟨rfl, hlow⟩ := ht.release_of_zero hne hz
    exact ⟨Action.causes_release_iff.mp hc, hlow⟩
  · cases Action.causes_unique hc (Action.causes_release_iff.mpr hrel)
    rw [ht.eq_releaseLine hlow]
    exact ⟨rfl, rfl⟩
  · obtain ⟨hstep, hhead, hd, hd'⟩ := h
    obtain ⟨rest, hs⟩ := List.head?_eq_some_iff.mp hhead
    have hsbegin : (s.begin ev rest).dev? = some (d.advance ev.dt) := by
      rw [State.begin_dev?, hd]; rfl
    have hubegin : (u.begin ev rest).dev? = some (e.advance ev.dt) := by
      rw [State.begin_dev?, he]; rfl
    rw [step_cons hs] at hstep
    obtain ⟨x, y, rfl, hstep', hxy⟩ :=
      actionStep_stepAlike (s := s.begin ev rest) (u := u.begin ev rest) hcfg hsbegin hubegin
        (hde.advance ev.dt) rfl ev.act t hstep
    have hx : x = d' := Option.some.inj ((State.dev?_putDev hsbegin).symm.trans hd')
    have hus : u.script = ev :: rest := hscript.trans hs
    exact ⟨_, y, ⟨(step_cons hus).trans hstep', by rw [hus]; rfl, he, State.dev?_putDev hubegin⟩,
      hx ▸ hxy⟩

end Sys2Proof.Proofs

/-! SUPPORT. Proofs of the claims about the state (10_state.md): the views of the cursor and of the source's
states, and reset. -/

namespace Sys2Proof.Machine

/-! ### The views -/

section Views

variable {b : Block}

theorem Block.viewIdle_iff : b.viewIdle = true ↔ b.count = .sentinel ∧ b.phase = .idle := by
  simp [Block.viewIdle]

theorem Block.viewAwaitAck_iff : b.viewAwaitAck = true ↔ b.phase = .startLow ∨ b.phase = .awaitAck := by
  simp [Block.viewAwaitAck]

theorem Block.viewCapturing_iff : b.viewCapturing = true ↔
    (∃ n : Fin 85, b.count = .val n ∧ 1 ≤ n.val ∧ n.val ≤ 83) ∧
      (b.phase = .idle ∨ b.phase = .waitComplete) := by
  cases hc : b.count with
  | sentinel => simp [Block.viewCapturing, hc]
  | val n => simp [Block.viewCapturing, hc]

theorem Block.viewComplete_iff : b.viewComplete = true ↔ b.count = .val 84 := by
  simp [Block.viewComplete]

theorem Block.lineOutputs_lineDir_iff : b.lineOutputs.lineDir = true ↔ b.lineDir = .output := by
  cases hl : b.lineDir <;> simp [Block.lineOutputs, LineDir.toBit, hl]

theorem Block.lineOutputs_lineDrv_iff : b.lineOutputs.lineDrv = true ↔ b.lineDrv = .high := by
  cases hl : b.lineDrv <;> simp [Block.lineOutputs, hl]

/-- With no attempt being started, a cursor of 1 to 84 shows Capturing or Complete (R37). -/
theorem Block.viewCapturing_or_viewComplete {n : Fin 85} (hc : b.count = .val n) (hn : n.val ≠ 0)
    (hp : b.phase = .idle ∨ b.phase = .waitComplete) : b.viewCapturing = true ∨ b.viewComplete = true := by
  by_cases h84 : n.val = 84
  · exact .inr (Block.viewComplete_iff.mpr (hc.trans (congrArg Count.val (Fin.ext h84))))
  · exact .inl (Block.viewCapturing_iff.mpr ⟨⟨n, hc, by omega, by omega⟩, hp⟩)

end Views

/-- The invariant leaves a cursor of 0 to the acknowledge wait (R85). -/
theorem Device.Inv.count_ne_zero {cfg : Params} {d : Device} (h : d.Inv cfg)
    (hp : d.blk.phase ≠ .awaitAck) {n : Fin 85} (hc : d.blk.count = .val n) : n.val ≠ 0 :=
  fun hz => hp (h.zero_await (hc.trans (congrArg Count.val (Fin.ext hz))))

/-- One of the source's four states always holds (R37). -/
theorem Device.Inv.some_view {cfg : Params} {d : Device} (h : d.Inv cfg) :
    d.blk.viewIdle = true ∨ d.blk.viewAwaitAck = true ∨ d.blk.viewCapturing = true ∨
      d.blk.viewComplete = true := by
  cases hp : d.blk.phase with
  | startLow => exact .inr (.inl (Block.viewAwaitAck_iff.mpr (.inl hp)))
  | awaitAck => exact .inr (.inl (Block.viewAwaitAck_iff.mpr (.inr hp)))
  | idle =>
    cases hc : d.blk.count with
    | sentinel => exact .inl (Block.viewIdle_iff.mpr ⟨hc, hp⟩)
    | val n =>
      have hn := h.count_ne_zero (by simp [hp]) hc
      exact .inr (.inr (Block.viewCapturing_or_viewComplete hc hn (.inl hp)))
  | waitComplete =>
    cases hc : d.blk.count with
    | sentinel => exact absurd hc (h.waiting_count (.inr hp))
    | val n =>
      have hn := h.count_ne_zero (by simp [hp]) hc
      exact .inr (.inr (Block.viewCapturing_or_viewComplete hc hn (.inr hp)))

/-! ### The 8-bit view of the cursor -/

/-- 0 to 84 are their own views (R26). -/
theorem Count.view_val_toNat (n : Fin 85) : (Count.view (.val n)).toNat = n.val := by
  have hn := n.isLt
  simp only [Count.view, BitVec.toNat_ofNat]
  omega

theorem Count.ofView_view (c : Count) : Count.ofView c.view = some c := by
  cases c with
  | sentinel => rfl
  | val n =>
    have hnat := Count.view_val_toNat n
    have hsent : Count.view (.val n) ≠ 0xFF#8 := by
      intro h
      have h255 : (Count.view (.val n)).toNat = 255 := by rw [h]; rfl
      omega
    simp only [Count.ofView, if_neg hsent, hnat, dif_pos n.isLt]

/-- 85 to 254 are no cursor's view (R26). -/
theorem Count.ofView_eq_none {v : Byte} (hlo : 85 ≤ v.toNat) (hhi : v.toNat ≤ 254) :
    Count.ofView v = none := by
  have hsent : v ≠ 0xFF#8 := by
    rintro rfl
    exact absurd hhi (by decide)
  rw [Count.ofView, if_neg hsent, dif_neg (Nat.not_lt.mpr hlo)]

/-! ### Reset -/

@[simp] theorem Device.reset_phase (cfg : Params) (k : Nat) : (Device.reset cfg k).blk.phase = .idle := rfl

/-- Every instance of an admitted machine meets the invariant after reset (R123). -/
theorem Device.inv_reset (cfg : Params) (k : Nat) : (Device.reset cfg k).Inv cfg where
  tl_wf := rfl
  tl_ts := nofun
  armTs_ts := (Config.initialArmTs k cfg.tsWidth).isLt
  below_written := nofun
  first_low := nofun
  idle_iff := ⟨fun _ => rfl, fun _ => rfl⟩
  wait_read := nofun
  waiting_line := by simp
  start_low := nofun
  waiting_count := by simp
  zero_await := nofun
  counting := fun hc => absurd rfl hc
  idle_disarmed := fun _ _ => rfl
  pending_full := nofun
  full_pending := by simp
  valid_reading := nofun
  valid_count := nofun
  sleep_iff := ⟨fun hs => absurd rfl hs, nofun⟩

theorem State.inv_resetWith {cfg : Params} {n : Nat} (hcfg : cfg.wf = true) (hn : 1 ≤ n) :
    (State.resetWith cfg n).Inv where
  params := hcfg
  instances := by simpa [State.resetWith] using hn
  device := by
    intro d hd
    obtain ⟨k, -, rfl⟩ := List.mem_map.mp hd
    exact Device.inv_reset cfg k

end Sys2Proof.Machine

namespace Sys2Proof.Proofs

open Sys2Proof.Machine

/-- Settles O60, view by view and bit by bit, and by the invariant's clauses on the cursor. -/
theorem viewsAndLineOutputs : Obligations.ViewsAndLineOutputs :=
  ⟨fun _ => ⟨Block.viewIdle_iff, Block.viewAwaitAck_iff, Block.viewCapturing_iff, Block.viewComplete_iff,
    Block.lineOutputs_lineDir_iff, Block.lineOutputs_lineDrv_iff, rfl⟩, fun _ _ h => h.some_view⟩

/-- Settles O41: below 85 the view is the number, which is not 0xFF. -/
theorem countView : Obligations.CountView :=
  ⟨Count.ofView_view, rfl, Count.view_val_toNat, fun _ hlo hhi => Count.ofView_eq_none hlo hhi⟩

/-- Settles O42, instance by instance; the default parameters are admitted ones. -/
theorem invAtReset : Obligations.InvAtReset :=
  ⟨State.inv_resetWith (by decide) (Nat.le_refl 1), fun _ _ hcfg hn => State.inv_resetWith hcfg hn⟩

end Sys2Proof.Proofs

/-! SUPPORT. Proofs of the claims about the memory (20_memory.md): the timeline's primitives, what a byte and a
frame read of the timeline, GET_DATA asked twice, and that the instances share nothing. -/

namespace Sys2Proof.Machine

open Sys2Proof.Claims

/-! ### The timeline's primitives -/

/-- What `TLRead` answers depends on the one entry at its index (R40). -/
theorem tlRead_congr {m m' : Memory} {i : Nat} (h : m'.get? i = m.get? i) : tlRead m' i = tlRead m i := by
  simp only [tlRead, h]

theorem tlRead_of_unwritten {m : Memory} {i : Nat} (hi : i < Config.capacity) (h : m.get? i = none) :
    tlRead m i = .error (.unwrittenSlot i) := by
  simp only [tlRead, if_pos hi, h]

theorem tlRead_of_ge (m : Memory) {i : Nat} (hi : ¬ i < Config.capacity) :
    tlRead m i = .error (.slotOutOfRange i) := if_neg hi

theorem tlWrite_of_ge (m : Memory) {i : Nat} (e : Edge) (hi : ¬ i < Config.capacity) :
    tlWrite m i e = .error (.slotOutOfRange i) := if_neg hi

/-- The status function faults where the last recorded edge is not there to be measured from (R40, R84). -/
theorem statusFn_of_unwritten {cfg : Params} {b : Block} {c : Fin 85} {n : Nat} (hc : b.count = .val c)
    (hpos : 1 ≤ c.val) (hlt : c.val < 84) (h : b.tl.get? (c.val - 1) = none) :
    statusFn cfg b n = .error (.unwrittenSlot (c.val - 1)) := by
  have href : statusRef b c = .error (.unwrittenSlot (c.val - 1)) := by
    rw [statusRef, if_neg (by omega), tlRead_of_unwritten (show c.val - 1 < 84 by omega) h]
  simp only [statusFn, hc, href, Config.capacity_eq, if_neg (show c.val ≠ 84 by omega)]

/-! ### One bit -/

section Bits

variable {cfg : Params} {m : Memory} {off i : Nat} {E : Nat → Edge}

/-- A bit whose three slots are written is decoded from their edges (R94). -/
theorem readBit_of_holds (hoff : off ≤ 67) (hE : Holds m E off (off + 16)) (hi : i < 8) :
    readBit cfg m off i =
      .ok (decodeBit cfg (E (off + 2 * i)) (E (off + 2 * i + 1)) (E (off + 2 * i + 2))) := by
  have hread : ∀ k, off ≤ k → k ≤ off + 16 → tlRead m k = .ok (E k) := fun k hlo hhi =>
    tlRead_of_get? (show k < 84 by omega) (hE k hlo hhi)
  simp only [readBit, hread (off + 2 * i) (by omega) (by omega),
    hread (off + 2 * i + 1) (by omega) (by omega), hread (off + 2 * i + 2) (by omega) (by omega)]

/-- The bit a duration stands for (R97). -/
def bitAt (cfg : Params) (E : Nat → Edge) (off i : Nat) : Bool :=
  decide (cfg.bit0MaxUs < duration cfg.tsWidth E off i)

theorem decodeBit_of_bitOk (h : BitOk cfg E off i) :
    decodeBit cfg (E (off + 2 * i)) (E (off + 2 * i + 1)) (E (off + 2 * i + 2)) =
      .ok (bitAt cfg E off i) := by
  obtain ⟨hlvl, hdur⟩ := h
  exact (if_pos hlvl).trans (by rw [← duration, classify_of_le hdur]; rfl)

theorem decodeBit_of_not_levelsOk (h : ¬ LevelsOk E off i) :
    decodeBit cfg (E (off + 2 * i)) (E (off + 2 * i + 1)) (E (off + 2 * i + 2)) =
      .fail .errSequenceInvalid := if_neg h

theorem decodeBit_of_tooLong (hlvl : LevelsOk E off i)
    (hdur : cfg.bit1MaxUs < duration cfg.tsWidth E off i) :
    decodeBit cfg (E (off + 2 * i)) (E (off + 2 * i + 1)) (E (off + 2 * i + 2)) =
      .fail .errTimeout := by
  exact (if_pos hlvl).trans (by rw [← duration, classify_tooLong_iff.mpr hdur])

/-- A bit looks at the levels of its first two edges and the timestamps of its last two (R95, R96). -/
theorem decodeBit_congr {e0 e1 e2 e0' e1' e2' : Edge} (h0 : e0.lvl = e0'.lvl) (h1 : e1.lvl = e1'.lvl)
    (t1 : e1.ts = e1'.ts) (t2 : e2.ts = e2'.ts) : decodeBit cfg e0 e1 e2 = decodeBit cfg e0' e1' e2' := by
  simp only [decodeBit, h0, h1, t1, t2]

/-! ### One byte -/

/-- The first `n` bits of the byte at `off`, as the loop of R98 has gathered them. -/
def gathered (cfg : Params) (E : Nat → Edge) (off : Nat) : Nat → Byte
  | 0 => 0
  | n + 1 => pushBit (gathered cfg E off n) (bitAt cfg E off n)

theorem getLsbD_pushBit_zero (v : Byte) (b : Bool) : (pushBit v b).getLsbD 0 = b := by
  cases b <;> simp [pushBit]

theorem getLsbD_pushBit_succ (v : Byte) (b : Bool) {k : Nat} (hk : k + 1 < 8) :
    (pushBit v b).getLsbD (k + 1) = v.getLsbD k := by
  cases b <;> simp [pushBit, hk, BitVec.getLsbD_eq_getElem (show k < 8 by omega)]

/-- Bits accumulate most significant first: bit `j` of `n` lies `n - 1 - j` from the right (R48). -/
theorem getLsbD_gathered {n j : Nat} (hn : n ≤ 8) (hj : j < n) :
    (gathered cfg E off n).getLsbD (n - 1 - j) = bitAt cfg E off j := by
  induction n with
  | zero => omega
  | succ n ih =>
    by_cases hlast : j = n
    · subst hlast
      rw [show j + 1 - 1 - j = 0 by omega]
      exact getLsbD_pushBit_zero ..
    · rw [show n + 1 - 1 - j = n - 1 - j + 1 by omega]
      exact (getLsbD_pushBit_succ _ _ (by omega)).trans (ih (by omega) (by omega))

/-- The loop of R98 gets past the bits that decode. -/
theorem decodeByte_of_bitsOk (hoff : off ≤ 67) (hE : Holds m E off (off + 16)) {k n : Nat}
    (hkn : k + n = 8) (hok : ∀ j, j < n → BitOk cfg E off j) :
    decodeByte cfg m off = decodeBits cfg m off k n (gathered cfg E off n) := by
  induction n generalizing k with
  | zero => rw [show k = 8 from hkn]; rfl
  | succ n ih =>
    rw [ih (k := k + 1) (by omega) fun j hj => hok j (by omega)]
    simp only [decodeBits, readBit_of_holds hoff hE (show n < 8 by omega),
      decodeBit_of_bitOk (hok n (by omega)), gathered]

/-- The first bit that fails decides the byte (R98). -/
theorem decodeByte_of_first_fail {st : Status} (hoff : off ≤ 67) (hE : Holds m E off (off + 16))
    (hi : i < 8) (hok : ∀ j, j < i → BitOk cfg E off j)
    (hfail : decodeBit cfg (E (off + 2 * i)) (E (off + 2 * i + 1)) (E (off + 2 * i + 2)) = .fail st) :
    decodeByte cfg m off = .ok (.fail st) := by
  rw [decodeByte_of_bitsOk hoff hE (show 7 - i + 1 + i = 8 by omega) hok]
  simp only [decodeBits, readBit_of_holds hoff hE hi, hfail]

/-! ### What the decoder does not look at -/

/-- Two timelines that read alike in every bit from `i` on give the loop of R98 the same answer. -/
theorem decodeBits_congr {m' : Memory} {k : Nat} {v : Byte}
    (h : ∀ j, i ≤ j → j < i + k → readBit cfg m off j = readBit cfg m' off j) :
    decodeBits cfg m off k i v = decodeBits cfg m' off k i v := by
  induction k generalizing i v with
  | zero => rfl
  | succ k ih =>
    have hrest : ∀ v, decodeBits cfg m off k (i + 1) v = decodeBits cfg m' off k (i + 1) v := fun v =>
      ih fun j hlo hhi => h j (by omega) (by omega)
    simp only [decodeBits, h i (Nat.le_refl i) (by omega), hrest]

/-- A byte looks at the levels of its first 16 slots, and at the timestamps of its last 16 (R94 to R96). -/
theorem decodeByte_congr {m' : Memory} {E' : Nat → Edge} (hoff : off ≤ 67)
    (hE : Holds m E off (off + 16)) (hE' : Holds m' E' off (off + 16))
    (hlvl : ∀ k, off ≤ k → k < off + 16 → (E k).lvl = (E' k).lvl)
    (hts : ∀ k, off < k → k ≤ off + 16 → (E k).ts = (E' k).ts) :
    decodeByte cfg m off = decodeByte cfg m' off := by
  refine decodeBits_congr fun j _ hj => ?_
  rw [readBit_of_holds hoff hE (by omega), readBit_of_holds hoff hE' (by omega),
    decodeBit_congr (hlvl (off + 2 * j) (by omega) (by omega))
      (hlvl (off + 2 * j + 1) (by omega) (by omega)) (hts (off + 2 * j + 1) (by omega) (by omega))
      (hts (off + 2 * j + 2) (by omega) (by omega))]

/-- The frame is decoded from its three bytes (R101). -/
theorem decodeFn_congr {m' : Memory} (hhum : decodeByte cfg m 2 = decodeByte cfg m' 2)
    (htmp : decodeByte cfg m 34 = decodeByte cfg m' 34) (hcrc : decodeByte cfg m 66 = decodeByte cfg m' 66) :
    decodeFn cfg m = decodeFn cfg m' := by
  simp only [decodeFn, show Config.offHumInt = 2 from rfl, show Config.offTmpInt = 34 from rfl,
    show Config.offCrc = 66 from rfl, hhum, htmp, hcrc]

theorem holds_mono {lo hi lo' hi' : Nat} (h : Holds m E lo hi) (hlo : lo ≤ lo') (hhi : hi' ≤ hi) :
    Holds m E lo' hi' :=
  fun k hk hk' => h k (hlo.trans hk) (hk'.trans hhi)

end Bits

/-! ### GET_DATA asked twice -/

section GetData

variable {cfg : Params} {k : Nat} {d d' : Device} {st : Status}

theorem execGetData_next_iff {s t : State} :
    execGetData s = .next t ↔ ∃ d st d', s.dev? = some d ∧ d.blk.phase = .idle ∧
      getDataBody s.cfg s.sel d = .ok (st, d') ∧ t = s.putDev (d'.respond st) := by
  rw [execGetData, accept_next_iff]
  constructor
  · rintro ⟨d, x, hd, hp, hf, rfl⟩
    cases hb : getDataBody s.cfg s.sel d with
    | error f => rw [hb] at hf; cases hf
    | ok res => rw [hb] at hf; cases hf; exact ⟨d, _, _, hd, hp, hb, rfl⟩
  · rintro ⟨d, st, d', hd, hp, hb, rfl⟩
    exact ⟨d, d'.respond st, hd, hp, by simp only [hb], rfl⟩

/-- GET_DATA's body emits no response itself (R91). -/
theorem getDataBody_responses (h : getDataBody cfg k d = .ok (st, d')) : d'.responses = d.responses := by
  rcases getDataBody_ok_cases h with ⟨-, -, rfl⟩ | ⟨-, r, -, -, rfl⟩ | ⟨-, -, rfl⟩ <;> rfl

theorem getDataBody_tl (h : getDataBody cfg k d = .ok (st, d')) : d'.blk.tl = d.blk.tl := by
  rw [getDataBody_frame h]

theorem getDataBody_count (h : getDataBody cfg k d = .ok (st, d')) : d'.blk.count = d.blk.count := by
  rw [getDataBody_frame h]

theorem getDataBody_phase (h : getDataBody cfg k d = .ok (st, d')) : d'.blk.phase = d.blk.phase := by
  rw [getDataBody_frame h]

/-- GET_DATA's body asked again of the block it left: the timeline is the same, so the decode is (R46, R109). -/
theorem getDataBody_repeats {e : Device} (hc : d.blk.count = .val 84)
    (h : getDataBody cfg k d = .ok (st, d')) (he : e.blk = d'.blk) :
    ∃ e', getDataBody cfg k e = .ok (st, e') ∧ (st = .ok → e'.blk = d'.blk) := by
  have htl : e.blk.tl = d.blk.tl := by rw [he, getDataBody_tl h]
  have hcount : e.blk.count = .val 84 := by rw [he, getDataBody_count h, hc]
  rcases getDataBody_ok_cases h with ⟨hne, -, -⟩ | ⟨-, r, hd, rfl, rfl⟩ | ⟨-, hd, -⟩
  · exact absurd hc hne
  · exact ⟨_, getDataBody_full hcount (htl ▸ hd), fun _ => by rw [he]⟩
  · refine ⟨_, getDataBody_full hcount (htl ▸ hd), fun hok => ?_⟩
    rcases decodeFn_fail hd with hst | hst | hst <;> cases hok.symm.trans hst

end GetData

/-! ### Steps of two machines that give the same instance the turn -/

/-- When the first step answers a next state, so does the second, each machine having put back one and the
same instance. -/
def SameEffect (s u : State) (x y : StepResult) : Prop :=
  ∀ t, x = .next t → ∃ d', t = s.putDev d' ∧ y = .next (u.putDev d')

section Effect

variable {s u : State} (hdev : u.dev? = s.dev?)

include hdev

theorem onDevice_sameEffect (f : Device → Except Fault Device) :
    SameEffect s u (onDevice s f) (onDevice u f) := by
  intro t ht
  obtain ⟨d, d', hd, hf, rfl⟩ := onDevice_next_iff.mp ht
  exact ⟨d', rfl, onDevice_next_iff.mpr ⟨d, d', hdev.trans hd, hf, rfl⟩⟩

theorem accept_sameEffect (f : Device → Except Fault Device) :
    SameEffect s u (accept s f) (accept u f) := by
  intro t ht
  obtain ⟨d, d', hd, hp, hf, rfl⟩ := accept_next_iff.mp ht
  exact ⟨d', rfl, accept_next_iff.mpr ⟨d, d', hdev.trans hd, hp, hf, rfl⟩⟩

/-- Besides the instance whose turn it is, an action sees the parameters and that instance's number alone
(R56). -/
theorem actionStep_sameEffect (hcfg : u.cfg = s.cfg) (hsel : u.sel = s.sel) (a : Action) :
    SameEffect s u (actionStep a s) (actionStep a u) := by
  obtain ⟨cfg, ds, sel, rest⟩ := s
  obtain ⟨_, es, _, rest'⟩ := u
  cases hcfg
  cases hsel
  cases a with
  | port w =>
    simp only [actionStep, portStep]
    cases decode cfg.tsWidth w with
    | error err => exact nofun
    | ok i =>
      cases i with
      | edge lvl ts => exact onDevice_sameEffect hdev _
      | _ => exact accept_sameEffect hdev _
  | release =>
    simp only [actionStep, startRelease]
    exact onDevice_sameEffect hdev _
  | poll => exact onDevice_sameEffect hdev _
  | wake => exact onDevice_sameEffect hdev _

end Effect

end Sys2Proof.Machine

namespace Sys2Proof.Proofs

open Sys2Proof.Machine Sys2Proof.Claims

/-- Settles O31, from the laws of a memory's entries, on either side of the last index. -/
theorem timelineReadWrite : Obligations.TimelineReadWrite := by
  intro m i e
  have hcap : i ≤ 83 → i < Config.capacity := Nat.lt_succ_of_le
  refine ⟨fun hi => ⟨m.set i e, tlWrite_of_lt m e (hcap hi), ?_, fun j hj => ?_, ?_⟩,
    fun hi h => tlRead_of_unwritten (hcap hi) h, fun hi => ?_⟩
  · exact tlRead_of_get? (hcap hi) (m.get?_set_same i e)
  · exact tlRead_congr (m.get?_set_other e hj)
  · exact tlWrite_wf (tlWrite_of_lt m e (hcap hi))
  · have hout : ¬ i < Config.capacity := Nat.not_lt.mpr hi
    exact ⟨tlRead_of_ge m hout, tlWrite_of_ge m e hout⟩

/-- Settles O34: the bits before the first bad one are gathered, and that one decides; with none bad all
eight are. -/
theorem byteAssembly : Obligations.ByteAssembly := by
  intro cfg m off E hoff hE
  refine ⟨fun hok => ⟨gathered cfg E off 8, decodeByte_of_bitsOk hoff hE (Nat.zero_add 8) hok, fun i hi => ?_⟩,
    fun i hi hok hlvl => ?_, fun i hi hok hlvl hdur => ?_⟩
  · exact getLsbD_gathered (Nat.le_refl 8) hi
  · exact decodeByte_of_first_fail hoff hE hi hok (decodeBit_of_not_levelsOk hlvl)
  · exact decodeByte_of_first_fail hoff hE hi hok (decodeBit_of_tooLong hlvl hdur)

/-- Settles O37, byte by byte at the offsets 2, 34 and 66. -/
theorem unusedSlotsIgnored : Obligations.UnusedSlotsIgnored := by
  intro cfg m m' E E' hE hE' hlvl hts
  have hbyte : ∀ off, off = 2 ∨ off = 34 ∨ off = 66 → decodeByte cfg m off = decodeByte cfg m' off := by
    intro off hoff
    refine decodeByte_congr (by omega) (holds_mono hE (by omega) (by omega))
      (holds_mono hE' (by omega) (by omega))
      (fun k hlo hhi => hlvl k ?_) (fun k hlo hhi => hts k ?_)
    · unfold readsLevel; omega
    · unfold readsTime readsLevel; omega
  exact decodeFn_congr (hbyte 2 (.inl rfl)) (hbyte 34 (.inr (.inl rfl))) (hbyte 66 (.inr (.inr rfl)))

/-- Settles O21: the first GET_DATA leaves the timeline, so the second decodes the same. -/
theorem getDataRepeats : Obligations.GetDataRepeats := by
  intro s t d d' st hd hc hexec hd' hresp
  obtain ⟨d₀, st₀, d₁, hd₀, hp, hb, rfl⟩ := execGetData_next_iff.mp hexec
  cases hd.symm.trans hd₀
  cases (State.dev?_putDev hd).symm.trans hd'
  have hst : st₀ = st := by
    have hlast : d₁.responses ++ [st₀] = d.responses ++ [st] := hresp
    rw [getDataBody_responses hb] at hlast
    simpa using hlast
  subst hst
  obtain ⟨d₂, hb₂, hsame⟩ := getDataBody_repeats (e := d₁.respond st₀) hc hb rfl
  refine ⟨_, d₂.respond st₀,
    execGetData_next_iff.mpr ⟨_, _, _, hd', (getDataBody_phase hb).trans hp, hb₂, rfl⟩,
    State.dev?_putDev hd', ?_, ?_, ?_, hsame⟩
  · rw [Device.respond_responses, getDataBody_responses hb₂]
  · rw [Device.respond_blk, getDataBody_tl hb₂, Device.respond_blk, getDataBody_tl hb]
  · rw [Device.respond_blk, getDataBody_count hb₂, Device.respond_blk, getDataBody_count hb]

/-- Settles O47: a step puts back the instance whose turn it is, and the action sees no other. -/
theorem instancesIndependent : Obligations.InstancesIndependent := by
  constructor
  · intro s t ev j hstep hhead hj
    obtain ⟨hnil, -⟩ | ⟨ev', rest, d, d', c, hs, -, -, -, rfl⟩ := step_next_cases hstep
    · rw [hnil] at hhead; cases hhead
    · rw [hs] at hhead; cases hhead
      rw [begin_putDev_devices, if_neg hj]
  · intro s s' t ev hcfg hscript hhead hdev hstep
    obtain ⟨rest, hs⟩ := List.head?_eq_some_iff.mp hhead
    have hbegin : (s'.begin ev rest).dev? = (s.begin ev rest).dev? := by
      rw [State.begin_dev?, State.begin_dev?, hdev]
    rw [step_cons hs] at hstep
    obtain ⟨d', rfl, hstep'⟩ := actionStep_sameEffect hbegin hcfg.symm rfl ev.act t hstep
    refine ⟨_, (step_cons (hscript.symm.trans hs)).trans hstep', ?_⟩
    rw [begin_putDev_devices, begin_putDev_devices, if_pos rfl, if_pos rfl, hdev]

/-- Settles O15: the status function faults, and the command with it. -/
theorem checkStatusStops : Obligations.CheckStatusStops := by
  intro s d hd hp c hc hpos hlt hnone
  refine accept_fault_iff.mpr ⟨d, hd, hp, ?_⟩
  simp only [statusFn_of_unwritten hc hpos hlt hnone]

end Sys2Proof.Proofs

/-! SUPPORT. Proofs of the claims about the encodings (30_encoding.md): the words of the two ports, the steps they
name, and what the output ports carry. -/

namespace Sys2Proof

/-! ### The fields of an edge word -/

/-- The word `{lvl, ts}` has its level in bit `W` (R60). -/
theorem testBit_edgeWord {width ts : Nat} (b : Bool) (h : ts < 2 ^ width) :
    ((if b then 2 ^ width else 0) + ts).testBit width = b := by
  cases b with
  | false => simpa using Nat.testBit_lt_two_pow h
  | true => simp [Nat.testBit_two_pow_add_eq, Nat.testBit_lt_two_pow h]

/-- The word `{lvl, ts}` has its timestamp below bit `W` (R60). -/
theorem edgeWord_mod {width ts : Nat} (b : Bool) (h : ts < 2 ^ width) :
    ((if b then 2 ^ width else 0) + ts) % 2 ^ width = ts := by
  cases b with
  | false => simpa using Nat.mod_eq_of_lt h
  | true => simpa using Nat.mod_eq_of_lt h

/-- A word of the edge port is made of its bit `W` and the bits below it (R60). -/
theorem edgeWord_of_fields {width w : Nat} (h : w < 2 ^ (width + 1)) :
    (if w.testBit width then 2 ^ width else 0) + w % 2 ^ width = w := by
  by_cases hw : 2 ^ width ≤ w
  · rw [Nat.testBit_of_two_pow_le_and_two_pow_add_one_gt hw h, if_pos rfl, Nat.mod_eq_sub_mod hw,
      Nat.mod_eq_of_lt (by rw [Nat.pow_succ] at h; omega)]
    exact Nat.add_sub_cancel' hw
  · have hlt : w < 2 ^ width := Nat.lt_of_not_le hw
    simp [Nat.testBit_lt_two_pow hlt, Nat.mod_eq_of_lt hlt]

@[simp] theorem Level.ofBit_toBit (lvl : Level) : Level.ofBit lvl.toBit = lvl := by cases lvl <;> rfl

@[simp] theorem Level.toBit_ofBit (b : Bool) : (Level.ofBit b).toBit = b := by cases b <;> rfl

theorem Level.toBit_iff {lvl : Level} : lvl.toBit = true ↔ lvl = .high := by cases lvl <;> simp [toBit]

/-! ### The decoder, port by port -/

theorem decode_edge_of_lt {width w : Nat} (h : w < 2 ^ (width + 1)) :
    decode width (.edge w) = .ok (decodeEdge width w) := if_pos h

theorem decode_edge_ok_iff {width w : Nat} {i : Instr} :
    decode width (.edge w) = .ok i ↔ w < 2 ^ (width + 1) ∧ decodeEdge width w = i := by
  by_cases h : w < 2 ^ (width + 1)
  · simp [decode_edge_of_lt h, h]
  · simp [decode, h]

theorem decode_cmd_ok_iff {width w : Nat} {i : Instr} :
    decode width (.cmd w) = .ok i ↔ w < 2 ^ 3 ∧ decodeOp w = some i := by
  by_cases h : w < 2 ^ 3
  · rw [decode, if_pos h, and_iff_right h]
    cases decodeOp w <;> simp
  · rw [decode, if_neg h]
    exact iff_of_false nofun fun hop => h hop.1

/-- The opcode that spells a command is its encoding, and a command has no operand to check (R57, R58). -/
theorem encode_of_decodeOp {width w : Nat} {i : Instr} (h : decodeOp w = some i) :
    encode width i = .cmd w ∧ i.wf width = true := by
  unfold decodeOp at h
  split at h <;> cases h <;> exact ⟨rfl, rfl⟩

/-- An edge word's fields make the word again, and its timestamp is a `W`-bit one (R60). -/
theorem encode_decodeEdge {width w : Nat} (h : w < 2 ^ (width + 1)) :
    encode width (decodeEdge width w) = .edge w ∧ (decodeEdge width w).wf width = true := by
  constructor
  · simp only [decodeEdge, encode, Level.toBit_ofBit, edgeWord_of_fields h]
  · exact decide_eq_true (Nat.mod_lt _ (Nat.two_pow_pos _))

/-- The word of an EDGE with a `W`-bit timestamp fits its port and has the operation's fields (R60). -/
theorem decode_encode_edge {width : Nat} (lvl : Level) {ts : Nat} (h : ts < 2 ^ width) :
    decode width (encode width (.edge lvl ts)) = .ok (.edge lvl ts) := by
  have hfits := Laws.EncodeFits.edge lvl ts width (decide_eq_true h)
  refine decode_edge_ok_iff.mpr ⟨of_decide_eq_true hfits, ?_⟩
  simp only [decodeEdge, testBit_edgeWord _ h, edgeWord_mod _ h, Level.ofBit_toBit]

end Sys2Proof

namespace Sys2Proof.Proofs

/-- Settles O1: a command's opcode by the table, an EDGE by the two fields of its word. -/
theorem decodeOfEncode : Obligations.DecodeOfEncode := by
  intro width i hwf
  cases i with
  | edge lvl ts => exact decode_encode_edge lvl (of_decide_eq_true hwf)
  | _ => rfl

/-- Settles O2, port by port. -/
theorem encodeOfDecode : Obligations.EncodeOfDecode := by
  intro width w i h
  cases w with
  | cmd w => exact encode_of_decodeOp (decode_cmd_ok_iff.mp h).2
  | edge w =>
    obtain ⟨hw, rfl⟩ := decode_edge_ok_iff.mp h
    exact encode_decodeEdge hw

/-- Settles O4: the fields are the ones the decoder reads. -/
theorem edgeWordFields : Obligations.EdgeWordFields := by
  intro width w hw
  refine ⟨Level.ofBit (w.testBit width), w % 2 ^ width, Nat.mod_lt _ (Nat.two_pow_pos _), ?_,
    decode_edge_of_lt hw⟩
  simp only [← Level.toBit_iff, Level.toBit_ofBit, edgeWord_of_fields hw]

/-- Settles O3, word by word of the eight. -/
theorem commandWordTable : Obligations.CommandWordTable := by
  intro width w hw
  interval_cases w <;> rfl

/-- Settles O5: the decoder computes each of the words. -/
theorem specWordsDecode : Obligations.SpecWordsDecode := by
  unfold Obligations.SpecWordsDecode
  decide

end Sys2Proof.Proofs

namespace Sys2Proof.Machine

/-! ### What a step without an operation runs -/

/-- A port word that decodes to nothing is refused by the name of what is wrong with it (R59). -/
theorem portStep_of_error {s : State} {w : PortWord} {e : DecodeError}
    (h : decode s.cfg.tsWidth w = .error e) : portStep w s = .refused (refusalOf e) := by
  simp only [portStep, h]

/-! ### One response for each command -/

section Responses

variable {cfg : Params} {k : Nat} {d d' : Device} {c : Cause}

/-- ACK_POLL ends a START_READ or READ with its one response, or leaves it waiting with none (R83). -/
theorem ackPollEffect_response_cases (hp : d.blk.phase = .awaitAck) :
    (∃ st, (ackPollEffect d).responses = d.responses ++ [st] ∧ (ackPollEffect d).blk.phase = .idle) ∨
    ((ackPollEffect d).responses = d.responses ∧ (ackPollEffect d).blk.phase ≠ .idle) := by
  by_cases hz : d.blk.count = .val 0
  · rw [ackPollEffect_of_zero hz]
    exact .inl ⟨.errTimeout, rfl, rfl⟩
  · rcases ackPollEffect_of_seen hz with ⟨-, heq⟩ | ⟨-, heq⟩ | ⟨-, heq⟩ <;> rw [heq]
    · exact .inr ⟨rfl, nofun⟩
    · exact .inl ⟨.ok, rfl, rfl⟩
    · exact .inr ⟨rfl, by simp [hp]⟩

/-- Everything a transition can do to the response port (R61, R90). -/
theorem Trans.response_cases (h : Trans cfg k d c d') :
    (∃ st, d'.responses = d.responses ++ [st] ∧ d'.blk.phase = .idle ∧
      (d.blk.phase ≠ .idle ∨ c = .instr .checkStatus ∨ c = .instr .abortRead ∨ c = .instr .getData)) ∨
    (d'.responses = d.responses ∧ (d'.blk.phase = .idle → d.blk.phase = .idle) ∧
      c ≠ .instr .checkStatus ∧ c ≠ .instr .abortRead ∧ c ≠ .instr .getData) := by
  cases h with
  | checkStatus hp => exact .inl ⟨_, rfl, hp, .inr (.inl rfl)⟩
  | abortRead hp => exact .inl ⟨_, rfl, hp, .inr (.inr (.inl rfl))⟩
  | getData hp hb =>
    exact .inl ⟨_, congrArg (· ++ _) (getDataBody_responses hb), (getDataBody_phase hb).trans hp,
      .inr (.inr (.inr rfl))⟩
  | wake hp _ hb =>
    have hresp := getDataBody_responses hb
    exact .inl ⟨_, congrArg (· ++ _) hresp, rfl, .inl (by simp [hp])⟩
  | poll hp =>
    rcases ackPollEffect_response_cases hp with ⟨st, hresp, hidle⟩ | ⟨hresp, hbusy⟩
    · exact .inl ⟨st, hresp, hidle, .inl (by simp [hp])⟩
    · exact .inr ⟨hresp, fun hidle => absurd hidle hbusy, nofun, nofun, nofun⟩
  | startRead => exact .inr ⟨rfl, nofun, nofun, nofun, nofun⟩
  | read => exact .inr ⟨rfl, nofun, nofun, nofun, nofun⟩
  | release => exact .inr ⟨rfl, nofun, nofun, nofun, nofun⟩
  | _ => exact .inr ⟨rfl, id, nofun, nofun, nofun⟩

end Responses

/-! ### What the reading port carries -/

/-- A byte put at bit `n` of the reading port is read there (R65). -/
theorem extractLsb'_byteAt_same (v : Byte) {n : Nat} (hn : n + 8 ≤ 40) :
    (v.setWidth 40 <<< n).extractLsb' n 8 = v := by
  ext i hi
  simp [show n + i < 40 by omega, BitVec.getLsbD_eq_getElem hi]

/-- A byte put at bit `n` of the reading port leaves the others' bits 0 (R65). -/
theorem extractLsb'_byteAt_other (v : Byte) {n lo : Nat} (h : n + 8 ≤ lo ∨ lo + 8 ≤ n) :
    (v.setWidth 40 <<< n).extractLsb' lo 8 = 0#8 := by
  ext i hi
  rcases h with h | h
  · simp [BitVec.getLsbD_of_ge v (lo + i - n) (by omega)]
  · simp [show lo + i < n by omega]

/-- Each byte of the reading port lies where R65 puts it. -/
theorem Reading.pack_bytes (r : Reading) :
    r.pack.extractLsb' 32 8 = r.humInt ∧ r.pack.extractLsb' 24 8 = r.humDec ∧
    r.pack.extractLsb' 16 8 = r.tmpInt ∧ r.pack.extractLsb' 8 8 = r.tmpDec ∧
    r.pack.extractLsb' 0 8 = r.crc := by
  have hcrc : r.crc.setWidth 40 = r.crc.setWidth 40 <<< 0 := (BitVec.shiftLeft_zero _).symm
  rw [Reading.pack, hcrc]
  simp only [BitVec.extractLsb'_or]
  simp [-BitVec.shiftLeft_zero, extractLsb'_byteAt_same, extractLsb'_byteAt_other]

end Sys2Proof.Machine

namespace Sys2Proof.Proofs

open Sys2Proof.Machine Sys2Proof.Claims

/-- Settles O49, from everything a transition can do to the response port. -/
theorem oneResponsePerCommand : Obligations.OneResponsePerCommand := by
  intro s t ev d d' _ h
  obtain ⟨c, hc, ht⟩ := stepsTo_trans h
  have hnot : ∀ {i : Instr}, c ≠ .instr i → ¬ Runs s ev i := fun hne hruns =>
    hne (Action.causes_unique hc (runs_iff_causes.mp hruns))
  rcases ht.response_cases with ⟨st, hresp, hidle, hwho⟩ | ⟨hresp, hends, hcheck, habort, hget⟩
  · refine .inl ⟨st, hresp, hidle, hwho.imp_right ?_⟩
    exact Or.imp (runs_of_cause hc) (Or.imp (runs_of_cause hc) (runs_of_cause hc))
  · exact .inr ⟨hresp, hends, hnot hcheck, hnot habort, hnot hget⟩

/-- Settles O7: the draw's action names the step, taken by the instance whose turn has begun. -/
theorem stepRunsEngine : Obligations.StepRunsEngine := by
  intro s ev rest hs
  refine ⟨fun hact => ?_, fun hact => ?_, fun hact => ?_⟩ <;> rw [step_cons hs, hact] <;> rfl

/-- Settles O8: the decoder rejects the word before the state is looked at. -/
theorem reservedOpcodesRefused : Obligations.ReservedOpcodesRefused := by
  intro s ev rest w hs hact hw
  have hdec : decode s.cfg.tsWidth (.cmd w) = .error (.reservedOpcode w) := by
    rcases hw with rfl | rfl | rfl <;> rfl
  rw [step_cons hs, hact]
  exact portStep_of_error (s := s.begin ev rest) hdec

/-- Settles O40: code by code. -/
theorem statusCodesAndNames : Obligations.StatusCodesAndNames := by
  refine ⟨by decide, rfl, ?_, by decide⟩
  intro a
  cases a <;> decide

/-- Settles O39: the port carries the packed reading, byte by byte. -/
theorem readingPortPacking : Obligations.ReadingPortPacking := by
  intro b
  refine ⟨fun hv => ⟨b.reading.pack, by rw [Block.readingPort, if_pos hv], b.reading.pack_bytes⟩,
    fun hv => ?_⟩
  simp [Block.readingPort, hv]

end Sys2Proof.Proofs

/-! SUPPORT. Proofs of the claims about the encodings (30_encoding.md): the edges of the spec's FRAME, and what
they decode to. -/

namespace Sys2Proof.Machine

open Sys2Proof.Claims

/-! ### The timeline of a list of edges -/

theorem Memory.get?_zip_range' (es : List Edge) (lo k : Nat) :
    Memory.get? ((List.range' lo es.length).zip es) (lo + k) = es[k]? := by
  induction es generalizing lo k with
  | nil => rfl
  | cons e es ih =>
    simp only [List.length_cons, List.range'_succ, List.zip_cons_cons, Memory.get?]
    cases k with
    | zero => simp
    | succ k =>
      rw [if_neg (by omega), show lo + (k + 1) = lo + 1 + k by omega, ih, List.getElem?_cons_succ]

theorem memoryOf_get? (es : List Edge) (k : Nat) : (memoryOf es).get? k = es[k]? := by
  rw [memoryOf, List.range_eq_range', ← Nat.zero_add k, Memory.get?_zip_range', Nat.zero_add]

/-- The edge of slot `k` when the timeline holds `es` from slot 0 on. -/
def edgeAt (es : List Edge) (k : Nat) : Edge := es.getD k ⟨0, .low⟩

theorem edgeAt_of_getElem? {es : List Edge} {k : Nat} {e : Edge} (h : es[k]? = some e) :
    edgeAt es k = e := by
  simp [edgeAt, h]

theorem holds_memoryOf {es : List Edge} {lo hi : Nat} (h : hi < es.length) :
    Holds (memoryOf es) (edgeAt es) lo hi := by
  intro k _ hk
  have hlt : k < es.length := by omega
  rw [memoryOf_get?, edgeAt_of_getElem? (List.getElem?_eq_getElem hlt), List.getElem?_eq_getElem hlt]

/-! ### The edges of BITs and a TAIL -/

theorem linesEdges_append (width : Nat) (ls ls' : List Line) :
    linesEdges width (ls ++ ls') = linesEdges width ls ++ linesEdges width ls' :=
  List.filterMap_append

/-- The edges of one BIT after another from time `t` on, and of the TAIL that ends the last (R69). -/
def sentEdges (width : Nat) (bits : List Bool) (t : Nat) : List Edge :=
  linesEdges width ((pseudoBits bits t).1 ++ (pseudoTail (pseudoBits bits t).2).1)

theorem sentEdges_nil (width t : Nat) :
    sentEdges width [] t = [⟨t % 2 ^ width, .low⟩, ⟨(t + 50) % 2 ^ width, .high⟩] := rfl

theorem sentEdges_cons (width : Nat) (b : Bool) (bits : List Bool) (t : Nat) :
    sentEdges width (b :: bits) t =
      ⟨t % 2 ^ width, .low⟩ :: ⟨(t + 50) % 2 ^ width, .high⟩ ::
        sentEdges width bits (t + if b then 120 else 77) := rfl

theorem sentEdges_length (width : Nat) (bits : List Bool) (t : Nat) :
    (sentEdges width bits t).length = 2 * bits.length + 2 := by
  induction bits generalizing t with
  | nil => rfl
  | cons b bits ih => simp only [sentEdges_cons, List.length_cons, ih]; omega

theorem sentEdges_head (width : Nat) (bits : List Bool) (t : Nat) :
    (sentEdges width bits t)[0]? = some ⟨t % 2 ^ width, .low⟩ := by
  cases bits <;> rfl

/-- The three edges that bit `i` is read from (R69, R94): Low, High 50 µs later, and the Low of the item after it. -/
theorem sentEdges_bit (width : Nat) {bits : List Bool} {i : Nat} {b : Bool} (h : bits[i]? = some b)
    (t : Nat) : ∃ x, (sentEdges width bits t)[2 * i]? = some ⟨x % 2 ^ width, .low⟩ ∧
      (sentEdges width bits t)[2 * i + 1]? = some ⟨(x + 50) % 2 ^ width, .high⟩ ∧
      (sentEdges width bits t)[2 * i + 2]? =
        some ⟨(x + if b then 120 else 77) % 2 ^ width, .low⟩ := by
  induction bits generalizing i t with
  | nil => cases h
  | cons b' bits ih =>
    rw [sentEdges_cons]
    cases i with
    | zero =>
      cases h
      exact ⟨t, rfl, rfl, sentEdges_head ..⟩
    | succ i => exact ih h _

/-! ### A byte that was sent is decoded -/

/-- Subtraction sees its operands modulo `2^W` (R19). -/
theorem subW_mod (width a b : Nat) : subW width (a % 2 ^ width) (b % 2 ^ width) = subW width a b := by
  simp [subW, BitVec.toNat_sub]

/-- A BIT stays High for 70 µs or for 27 µs, whatever the clock does in between (R69, R96). -/
theorem subW_sentBit {width : Nat} (hw : 8 ≤ width) (x : Nat) (b : Bool) :
    subW width ((x + if b then 120 else 77) % 2 ^ width) ((x + 50) % 2 ^ width) =
      if b then 70 else 27 := by
  have hpow : 2 ^ 8 ≤ 2 ^ width := Nat.pow_le_pow_right (by decide) hw
  rw [subW_mod]
  cases b with
  | false => exact (subW_add width (x + 50) 27).trans (Nat.mod_eq_of_lt (by omega))
  | true => exact (subW_add width (x + 50) 70).trans (Nat.mod_eq_of_lt (by omega))

/-- Eight bits that decode, most significant first, are the byte they are the bits of (R98). -/
theorem decodeByte_of_isByteAt {cfg : Params} {m : Memory} {off : Nat} {E : Nat → Edge} {v : Byte}
    (hoff : off ≤ 67) (hE : Holds m E off (off + 16)) (hok : ∀ i, i < 8 → BitOk cfg E off i)
    (hv : IsByteAt cfg E off v) : decodeByte cfg m off = .ok (.ok v) := by
  have hgathered : gathered cfg E off 8 = v := by
    refine BitVec.eq_of_getLsbD_eq fun i hi => ?_
    have hbit := (getLsbD_gathered (cfg := cfg) (E := E) (off := off) (Nat.le_refl 8)
      (show 7 - i < 8 by omega)).trans (hv (7 - i) (by omega)).symm
    rwa [show 7 - (7 - i) = i by omega] at hbit
  rw [decodeByte_of_bitsOk hoff hE (Nat.zero_add 8) hok, hgathered]
  rfl

/-- The frame is the validator's answer on its three bytes (R101). -/
theorem decodeFn_of_bytes {cfg : Params} {m : Memory} {hi ti c : Byte}
    (hhi : decodeByte cfg m 2 = .ok (.ok hi)) (hti : decodeByte cfg m 34 = .ok (.ok ti))
    (hc : decodeByte cfg m 66 = .ok (.ok c)) : decodeFn cfg m = .ok (validate hi ti c) := by
  simp only [decodeFn, show Config.offHumInt = 2 from rfl, show Config.offTmpInt = 34 from rfl,
    show Config.offCrc = 66 from rfl, hhi, hti, hc]

section Sent

variable {cfg : Params} (hw : 8 ≤ cfg.tsWidth) (h27 : 27 ≤ cfg.bit0MaxUs) (h70 : cfg.bit0MaxUs < 70)
  (hmax : 70 ≤ cfg.bit1MaxUs)

include hw h27 h70 hmax

/-- A BIT's three edges have its levels, and a duration that the bounds tell from the other BIT's (R95, R97). -/
theorem bitOk_of_sentBit {E : Nat → Edge} {off i x : Nat} {b : Bool}
    (h0 : E (off + 2 * i) = ⟨x % 2 ^ cfg.tsWidth, .low⟩)
    (h1 : E (off + 2 * i + 1) = ⟨(x + 50) % 2 ^ cfg.tsWidth, .high⟩)
    (h2 : E (off + 2 * i + 2) = ⟨(x + if b then 120 else 77) % 2 ^ cfg.tsWidth, .low⟩) :
    BitOk cfg E off i ∧ b = decide (cfg.bit0MaxUs < duration cfg.tsWidth E off i) := by
  have hdur : duration cfg.tsWidth E off i = if b then 70 else 27 := by
    rw [duration, h1, h2]
    exact subW_sentBit hw x b
  rw [BitOk, LevelsOk, h0, h1, hdur]
  cases b with
  | false => simp; omega
  | true => simp; omega

/-- The byte sent as the bits from the `n`-th on, after the acknowledge's two edges, is decoded at its slots. -/
theorem decodeByte_of_sent (ack₀ ack₁ : Edge) {bits : List Bool} {n : Nat} {v : Byte} (t : Nat)
    (hn : n ≤ 32) (hbits : ∀ i, i < 8 → bits[n + i]? = some (v.getLsbD (7 - i))) :
    decodeByte cfg (memoryOf (ack₀ :: ack₁ :: sentEdges cfg.tsWidth bits t)) (2 + 2 * n) =
      .ok (.ok v) := by
  have hlen : n + 7 < bits.length := (List.getElem?_eq_some_iff.mp (hbits 7 (by decide))).1
  have hbit : ∀ i, i < 8 →
      BitOk cfg (edgeAt (ack₀ :: ack₁ :: sentEdges cfg.tsWidth bits t)) (2 + 2 * n) i ∧
      v.getLsbD (7 - i) = decide (cfg.bit0MaxUs < duration cfg.tsWidth
        (edgeAt (ack₀ :: ack₁ :: sentEdges cfg.tsWidth bits t)) (2 + 2 * n) i) := by
    intro i hi
    obtain ⟨x, h0, h1, h2⟩ := sentEdges_bit cfg.tsWidth (hbits i hi) t
    have hslot : 2 + 2 * n + 2 * i = 2 * (n + i) + 1 + 1 := by omega
    refine bitOk_of_sentBit hw h27 h70 hmax (x := x) (edgeAt_of_getElem? ?_) (edgeAt_of_getElem? ?_)
      (edgeAt_of_getElem? ?_) <;> rw [hslot]
    · exact h0
    · exact h1
    · exact h2
  refine decodeByte_of_isByteAt (by omega) (holds_memoryOf ?_) (fun i hi => (hbit i hi).1)
    fun i hi => (hbit i hi).2
  simp only [List.length_cons, sentEdges_length]
  omega

end Sent

/-! ### The frame -/

/-- The 40 bits of a frame, in wire order (R49, R69). -/
def frameBits (hi hd ti td c : Byte) : List Bool :=
  byteBits hi ++ byteBits hd ++ byteBits ti ++ byteBits td ++ byteBits c

/-- FRAME's edges: the acknowledge's two, the bits' and the tail's (R69). -/
theorem linesEdges_pseudoFrame (width : Nat) (hi hd ti td c : Byte) (a t : Nat) :
    linesEdges width (pseudoFrame hi hd ti td c a t).1 =
      ⟨t % 2 ^ width, .low⟩ :: ⟨(t + a) % 2 ^ width, .high⟩ ::
        sentEdges width (frameBits hi hd ti td c) (t + 2 * a) := by
  simp only [pseudoFrame, List.append_assoc, linesEdges_append, sentEdges, frameBits]
  rfl

/-- The frame's bits of the three integral bytes, each byte's most significant first (R48, R69). -/
theorem frameBits_getElem? (hi hd ti td c : Byte) :
    (∀ i, i < 8 → (frameBits hi hd ti td c)[0 + i]? = some (hi.getLsbD (7 - i))) ∧
    (∀ i, i < 8 → (frameBits hi hd ti td c)[16 + i]? = some (ti.getLsbD (7 - i))) ∧
    (∀ i, i < 8 → (frameBits hi hd ti td c)[32 + i]? = some (c.getLsbD (7 - i))) := by
  refine ⟨?_, ?_, ?_⟩ <;> (intro i h; interval_cases i <;> rfl)

end Sys2Proof.Machine

namespace Sys2Proof.Proofs

open Sys2Proof.Machine

/-- Settles O38: the three bytes decode as they were sent, and the checksum decides. -/
theorem frameDecodes : Obligations.FrameDecodes := by
  intro cfg hi hd ti td c a t hw h27 h70 hmax m
  have hm : m = memoryOf (_ :: _ :: _) :=
    congrArg memoryOf (linesEdges_pseudoFrame cfg.tsWidth hi hd ti td c a t)
  obtain ⟨hhum, htmp, hcrc⟩ := frameBits_getElem? hi hd ti td c
  have hframe : decodeFn cfg m = .ok (validate hi ti c) := by
    rw [hm]
    exact decodeFn_of_bytes
      (decodeByte_of_sent hw h27 h70 hmax _ _ (n := 0) _ (by decide) hhum)
      (decodeByte_of_sent hw h27 h70 hmax _ _ (n := 16) _ (by decide) htmp)
      (decodeByte_of_sent hw h27 h70 hmax _ _ (n := 32) _ (by decide) hcrc)
  have hsum : checksum hi 0 ti 0 = hi + ti := by simp [checksum]
  rw [hframe, validate, hsum]
  exact ⟨fun hc => by rw [if_pos hc], fun hc => by rw [if_neg hc]⟩

end Sys2Proof.Proofs

/-! SUPPORT. Proofs of the claims about the capture path (40_capture.md): which edges are discarded, what a recorded
one leaves, and a whole READ as the run of one instance. -/

namespace Sys2Proof.Machine

/-! ### One edge -/

/-- The edges that no slot is written for (R71 to R73, R75). -/
theorem recordEdge_of_discarded {e : Edge} {b : Block}
    (h : b.armed = false ∨ b.count = .sentinel ∨ (b.count = .val 0 ∧ e.lvl = .high) ∨
      b.count = .val 84) : recordEdge e b = .ok b := by
  obtain hsame | ⟨c, hlt, harmed, hc, hlow, -⟩ := recordEdge_cases e b
  · exact hsame
  · exfalso
    rcases h with hoff | hsent | ⟨hzero, hhigh⟩ | hfull
    · exact absurd (harmed.symm.trans hoff) nofun
    · exact absurd (hc.symm.trans hsent) nofun
    · cases hc.symm.trans hzero
      exact absurd (hhigh.symm.trans (hlow rfl)) nofun
    · cases hc.symm.trans hfull
      exact absurd hlt (by decide)

/-- An edge that leaves the block leaves the machine (R77). -/
theorem execEdge_of_same {s : State} {d : Device} (hd : s.dev? = some d) {lvl : Level} {ts : Nat}
    (h : recordEdge ⟨ts, lvl⟩ d.blk = .ok d.blk) : execEdge lvl ts s = .next s :=
  (execEdge_of_dev hd h).trans (congrArg Host.Outcome.next (State.putDev_self hd))

end Sys2Proof.Machine

namespace Sys2Proof.Proofs

open Sys2Proof.Machine

/-- Settles O27: none of the four edges is recorded. -/
theorem edgeDiscarded : Obligations.EdgeDiscarded := by
  intro s d lvl ts hd h
  exact execEdge_of_same hd (recordEdge_of_discarded h)

/-- Settles O30: the invariant has the cursor at SENTINEL while the start condition is held. -/
theorem startConditionDiscardsEdges : Obligations.StartConditionDiscardsEdges := by
  intro s d lvl ts hinv hd hp
  obtain ⟨-, -, -, hsent, -⟩ := (hinv.dev hd).start_low hp
  exact edgeDiscarded s d lvl ts hd (.inr (.inl hsent))

/-- Settles O28: the block after the append, element by element. -/
theorem edgeRecorded : Obligations.EdgeRecorded := by
  intro s d lvl ts c hd harmed hc hlt hlow
  refine ⟨d.blk.tl.set c.val ⟨ts, lvl⟩, ⟨c.val + 1, Nat.succ_lt_succ hlt⟩, ?_, rfl,
    Memory.get?_set_same .., fun k hk => Memory.get?_set_other _ _ hk⟩
  have hlatch : decide (c.val + 1 = Config.capacity) = decide (c.val = 83) := by simp
  have hexec := execEdge_of_dev hd (recordEdge_of_append (e := ⟨ts, lvl⟩) harmed hc hlt hlow)
  rwa [Block.appended, hlatch] at hexec

/-- Settles O29: an edge is discarded or appended, and the append writes the three elements alone. -/
theorem edgeAlwaysCompletes : Obligations.EdgeAlwaysCompletes := by
  intro s d lvl ts hd
  obtain hrec | ⟨c, hlt, -, -, -, hrec⟩ := recordEdge_cases ⟨ts, lvl⟩ d.blk <;>
    exact ⟨_, execEdge_of_dev hd hrec, rfl, rfl, rfl, rfl, rfl, rfl, rfl, rfl⟩

end Sys2Proof.Proofs

namespace Sys2Proof.Machine

open Sys2Proof.Claims

/-! ### A run of one instance -/

/-- The action takes instance `k` from `d`, its clock moved on, to `d'`, whatever the rest of the machine is. -/
def ActsTo (cfg : Params) (k : Nat) (a : Action) (d d' : Device) : Prop :=
  ∀ s : State, s.cfg = cfg → s.sel = k → s.dev? = some d → actionStep a s = .next (s.putDev d')

/-- The draws, all of instance `k`, take it from one state to another, one after the other. -/
inductive DeviceRun (cfg : Params) (k : Nat) : Device → List Event → Device → Prop where
  | nil (d : Device) : DeviceRun cfg k d [] d
  | cons {d d' d'' : Device} {dt : Nat} {a : Action} {evs : List Event}
      (h : ActsTo cfg k a (d.advance dt) d') (hrest : DeviceRun cfg k d' evs d'') :
      DeviceRun cfg k d ({ dev := k, dt := dt, act := a } :: evs) d''

theorem DeviceRun.append {cfg : Params} {k : Nat} {d d' d'' : Device} {evs evs' : List Event}
    (h : DeviceRun cfg k d evs d') (h' : DeviceRun cfg k d' evs' d'') :
    DeviceRun cfg k d (evs ++ evs') d'' := by
  induction h with
  | nil => exact h'
  | cons hact _ ih => exact .cons hact (ih h')

/-- A machine whose script begins with those draws runs them. -/
theorem DeviceRun.core_run {cfg : Params} {k : Nat} {d d' : Device} {evs rest : List Event}
    (h : DeviceRun cfg k d evs d') {s : State} (hcfg : s.cfg = cfg) (hd : s.devices[k]? = some d)
    (hs : s.script = evs ++ rest) :
    ∃ t, core.run evs.length s = .next t ∧ t.devices[k]? = some d' ∧ t.script = rest := by
  induction h generalizing s with
  | nil => exact ⟨s, rfl, hd, hs⟩
  | @cons d d₁ _ dt a evs hact _ ih =>
    let s₁ : State := s.begin ⟨k, dt, a⟩ (evs ++ rest)
    have hdev : s₁.dev? = some (d.advance dt) := by rw [State.begin_dev?, hd]; rfl
    have hstep : core.step s = .next (s₁.putDev d₁) := (step_cons hs).trans (hact s₁ hcfg rfl hdev)
    obtain ⟨t, hrun, ht⟩ := ih (s := s₁.putDev d₁) hcfg (State.dev?_putDev hdev) rfl
    exact ⟨t, by simp only [List.length_cons, Host.Core.run, hstep]; exact hrun, ht⟩

/-! ### What READ's draws do to the instance -/

section Acts

variable {cfg : Params} {k : Nat} {d : Device}

/-- A port word does what the operation it decodes to does. -/
theorem portStep_of_ok {s : State} {w : PortWord} {i : Instr} (h : decode s.cfg.tsWidth w = .ok i) :
    portStep w s = exec i s := by
  simp only [portStep, h]

/-- READ, presented at IDLE (R81, R87). -/
theorem actsTo_read (hp : d.blk.phase = .idle) :
    ActsTo cfg k (.port (.cmd 5)) d (startBegin cfg .read d) := by
  rintro s rfl - hd
  have hexec : execRead s = .next (s.putDev (startBegin s.cfg .read d)) :=
    accept_next_iff.mpr ⟨d, _, hd, hp, rfl, rfl⟩
  have hdec : decode s.cfg.tsWidth (.cmd 5) = .ok .read := rfl
  exact (portStep_of_ok hdec).trans hexec

/-- RELEASE while the start condition is held (R82). -/
theorem actsTo_release (hp : d.blk.phase = .startLow) :
    ActsTo cfg k .release d (releaseLine cfg d) := by
  rintro s rfl - hd
  have henabled : releaseEnabled d.blk = true := decide_eq_true hp
  simp only [actionStep, startRelease, onDevice_eq_of_dev hd, henabled, if_true]

/-- POLL once the acknowledge has been seen or its timeout has elapsed (R83). -/
theorem actsTo_poll (hp : d.blk.phase = .awaitAck) (ha : pollActs cfg d.blk (d.now cfg) = true) :
    ActsTo cfg k .poll d (ackPollEffect d) := by
  rintro s rfl - hd
  simp only [actionStep, ackPoll, onDevice_eq_of_dev hd, hp, ha, if_true]

/-- WAKE once the latch is set (R88). -/
theorem actsTo_wake {st : Status} {d' : Device} (hp : d.blk.phase = .waitComplete)
    (hl : d.blk.completePending = true)
    (hb : getDataBody cfg k (d.mapBlk Block.consume) = .ok (st, d')) :
    ActsTo cfg k .wake d (d'.finish st) := by
  rintro s rfl rfl hd
  have hw : wakeEnabled d.blk = true := by simp only [wakeEnabled, hp, hl, decide_true, Bool.and_self]
  simp only [actionStep, waitDone, onDevice_eq_of_dev hd, hw, if_true, hb]

/-- An edge event that is recorded as the block `b` (R60, R70). -/
theorem actsTo_edge {x : Nat × Edge} {b : Block} (hts : x.2.ts < 2 ^ cfg.tsWidth)
    (hb : recordEdge x.2 d.blk = .ok b) :
    ActsTo cfg k (edgeEvent cfg k x).act d { d with blk := b } := by
  rintro s rfl - hd
  exact (portStep_of_ok (decode_encode_edge x.2.lvl hts)).trans (execEdge_of_dev hd hb)

/-- An acknowledge that has been seen enables ACK_POLL whatever the clock shows (R83). -/
theorem pollActs_of_seen {b : Block} (h : b.count ≠ .val 0) (n : Nat) : pollActs cfg b n = true := by
  unfold pollActs
  split
  · rfl
  · rename_i c hc
    exact if_neg fun hz => h (hc.trans (congrArg Count.val (Fin.ext hz)))

/-- An acknowledge that has been seen moves READ on (R83). -/
theorem ackPollEffect_of_read (h : d.blk.count ≠ .val 0) (hcur : d.blk.cur = .read) :
    ackPollEffect d = d.mapBlk (Block.enter .waitComplete .read) := by
  rw [ackPollEffect, if_neg h, hcur]

end Acts

/-! ### An attempt's capture, edge by edge -/

/-- The block has captured the edges `es`, and no more, since the cursor was 0; the latch tells a complete
timeline (R44, R74, R76). -/
structure Block.Captured (b : Block) (es : List Edge) : Prop where
  armed : b.armed = true
  count : ∃ c : Fin 85, b.count = .val c ∧ c.val = es.length
  slots : ∀ j, j < es.length → b.tl.get? j = es[j]?
  latch : es.length = 84 → b.completePending = true

/-- START_RELEASE begins a capture with no edge, START_BEGIN having armed it (R81, R82). -/
theorem Block.captured_releaseLine {cfg : Params} {d : Device} (h : d.blk.armed = true) :
    (releaseLine cfg d).blk.Captured [] where
  armed := h
  count := ⟨0, rfl, rfl⟩
  slots := nofun
  latch := nofun

/-- The sequencer state is no part of the capture. -/
theorem Block.Captured.enter {b : Block} {es : List Edge} (h : b.Captured es) (p : Phase) (c : Cur) :
    (b.enter p c).Captured es := { h with }

/-- A complete capture has its cursor at 84. -/
theorem Block.Captured.count_full {b : Block} {es : List Edge} (h : b.Captured es)
    (hlen : es.length = 84) : b.count = .val 84 := by
  obtain ⟨c, hc, hlen'⟩ := h.count
  exact hc.trans (congrArg Count.val (Fin.ext (hlen'.trans hlen)))

/-- A capture with an edge has seen the acknowledge: its cursor is past 0. -/
theorem Block.Captured.count_ne_zero {b : Block} {e : Edge} {es : List Edge}
    (h : b.Captured (e :: es)) : b.count ≠ .val 0 := by
  intro hz
  obtain ⟨c, hc, hlen⟩ := h.count
  cases hc.symm.trans hz
  exact absurd hlen nofun

/-- The next edge of an incomplete capture is appended to it, the first being Low (R73, R74, R76). -/
theorem Block.Captured.recordEdge {b : Block} {es : List Edge} (h : b.Captured es)
    (hlen : es.length < 84) {e : Edge} (hlow : es = [] → e.lvl = .low) :
    ∃ b', Machine.recordEdge e b = .ok b' ∧ b'.Captured (es ++ [e]) ∧ b'.phase = b.phase ∧
      b'.cur = b.cur := by
  obtain ⟨c, hc, hclen⟩ := h.count
  have hlt : c.val < Config.capacity := hclen.trans_lt hlen
  refine ⟨b.appended e c hlt, recordEdge_of_append h.armed hc hlt fun hz => ?_, ?_, rfl, rfl⟩
  · exact hlow (List.eq_nil_of_length_eq_zero (hclen.symm.trans hz))
  · exact {
      armed := h.armed
      count := ⟨_, rfl, by simp [hclen]⟩
      slots := by
        intro j hj
        by_cases hlast : j = c.val
        · rw [hlast]
          exact (Memory.get?_set_same ..).trans (by simp [hclen])
        · have hj' : j < es.length := by simp at hj; omega
          rw [List.getElem?_append_left hj', ← h.slots j hj']
          exact Memory.get?_set_other _ _ hlast
      latch := by
        intro hfull
        have hlast : c.val + 1 = Config.capacity := by simpa [hclen] using hfull
        simp [Block.appended, hlast] }

/-- Edges that fit the timeline are captured one after the other, whatever the clock does between them. -/
theorem DeviceRun.edges {cfg : Params} {k : Nat} {d : Device} {es : List Edge} (h : d.blk.Captured es)
    (hne : es ≠ []) (ys : List (Nat × Edge)) (hlen : es.length + ys.length ≤ 84)
    (hts : ∀ y ∈ ys, y.2.ts < 2 ^ cfg.tsWidth) :
    ∃ d', DeviceRun cfg k d (ys.map (edgeEvent cfg k)) d' ∧
      d'.blk.Captured (es ++ ys.map Prod.snd) ∧ d'.blk.phase = d.blk.phase ∧
      d'.responses = d.responses := by
  induction ys generalizing d es with
  | nil => exact ⟨d, .nil d, by simpa using h, rfl, rfl⟩
  | cons y ys ih =>
    rw [List.length_cons] at hlen
    obtain ⟨b, hrec, hcap, hphase, -⟩ := h.recordEdge (e := y.2) (by omega) fun hnil => absurd hnil hne
    have hact : ActsTo cfg k (edgeEvent cfg k y).act (d.advance y.1) { d.advance y.1 with blk := b } :=
      actsTo_edge (hts y List.mem_cons_self) hrec
    obtain ⟨d', hrun, hcap', hphase', hresp⟩ :=
      ih (d := { d.advance y.1 with blk := b }) hcap (by simp)
        (by rw [List.length_append, List.length_singleton]; omega)
        fun z hz => hts z (List.mem_cons_of_mem y hz)
    exact ⟨d', .cons hact hrun, by simpa using hcap', hphase'.trans hphase, hresp⟩

/-- A complete capture decodes as its edges do (R42, R101). -/
theorem Block.Captured.decodeFn_eq {b : Block} {es : List Edge} (h : b.Captured es)
    (hlen : es.length = 84) (cfg : Params) : decodeFn cfg b.tl = decodeFn cfg (memoryOf es) := by
  have hmem : Holds (memoryOf es) (edgeAt es) 2 82 := holds_memoryOf (by omega)
  have htl : Holds b.tl (edgeAt es) 2 82 := by
    intro j hlo hhi
    rw [h.slots j (by omega), ← memoryOf_get?]
    exact hmem j hlo hhi
  exact Proofs.unusedSlotsIgnored cfg _ _ _ _ htl hmem (fun _ _ => rfl) fun _ _ => rfl

/-! ### READ, part by part -/

section Read

variable {cfg : Params} {k : Nat} {d : Device}

/-- READ from IDLE up to its completion wait (R81 to R83, R87): the acknowledge is the one edge captured. -/
theorem DeviceRun.readBegins (hp : d.blk.phase = .idle) {x : Nat × Edge} (hlow : x.2.lvl = .low)
    (hts : x.2.ts < 2 ^ cfg.tsWidth) (a b c : Nat) :
    ∃ d', DeviceRun cfg k d
        [{ dev := k, dt := a, act := .port (.cmd 5) }, { dev := k, dt := b, act := .release },
          edgeEvent cfg k x, { dev := k, dt := c, act := .poll }] d' ∧
      d'.blk.Captured [x.2] ∧ d'.blk.phase = .waitComplete ∧ d'.responses = d.responses := by
  let d₁ := startBegin cfg .read (d.advance a)
  let d₂ := releaseLine cfg (d₁.advance b)
  have hcap₂ : d₂.blk.Captured [] := Block.captured_releaseLine rfl
  obtain ⟨blk, hrec, hcap, hphase, hcur⟩ := hcap₂.recordEdge (by decide) fun _ => hlow
  let d₃ : Device := { d₂.advance x.1 with blk := blk }
  have hseen : blk.count ≠ .val 0 := hcap.count_ne_zero
  have hpoll : ackPollEffect (d₃.advance c) = (d₃.advance c).mapBlk (Block.enter .waitComplete .read) :=
    ackPollEffect_of_read hseen hcur
  refine ⟨ackPollEffect (d₃.advance c), ?_, ?_⟩
  · exact .cons (actsTo_read hp) <| .cons (actsTo_release rfl) <| .cons (actsTo_edge hts hrec) <|
      .cons (actsTo_poll hphase (pollActs_of_seen hseen _)) (.nil _)
  · rw [hpoll]
    exact ⟨hcap.enter .waitComplete .read, rfl, rfl⟩

/-- WAKE on a complete capture that decodes to `r`: READ ends in OK with that reading (R88, R102). -/
theorem DeviceRun.readEnds {es : List Edge} {r : Reading} (h : d.blk.Captured es)
    (hlen : es.length = 84) (hp : d.blk.phase = .waitComplete)
    (hdec : decodeFn cfg (memoryOf es) = .ok (.ok r)) (e : Nat) :
    ∃ d', DeviceRun cfg k d [{ dev := k, dt := e, act := .wake }] d' ∧
      d'.responses = d.responses ++ [.ok] ∧ d'.blk.reading = r ∧ d'.blk.dataValid = true ∧
      d'.blk.count = .val 84 ∧ d'.blk.completePending = false ∧ d'.blk.phase = .idle := by
  have hbody := getDataBody_full (k := k) (d := (d.advance e).mapBlk Block.consume)
    (h.count_full hlen) ((h.decodeFn_eq hlen cfg).trans hdec)
  exact ⟨_, .cons (actsTo_wake hp (h.latch hlen) hbody) (.nil _), rfl, rfl, rfl, h.count_full hlen,
    rfl, rfl⟩

end Read

end Sys2Proof.Machine

namespace Sys2Proof.Proofs

open Sys2Proof.Machine Sys2Proof.Claims

/-- Settles O26, as a run of the instance in three parts: READ up to its completion wait, the 83 further edges,
and WAKE. -/
theorem readDeliversFrame : Obligations.ReadDeliversFrame := by
  intro s k d x xs a b c e rest r hd hp hlen hlow hts hdec hs
  have hfull : ([x.2] ++ xs.map Prod.snd).length = 84 := by simp [hlen]
  obtain ⟨d₁, hrun₁, hcap₁, hphase₁, hresp₁⟩ :=
    DeviceRun.readBegins (cfg := s.cfg) (k := k) hp hlow (hts x List.mem_cons_self) a b c
  obtain ⟨d₂, hrun₂, hcap₂, hphase₂, hresp₂⟩ :=
    DeviceRun.edges (cfg := s.cfg) (k := k) hcap₁ (by simp) xs (by simp [hlen])
      fun y hy => hts y (List.mem_cons_of_mem x hy)
  obtain ⟨d₃, hrun₃, hresp₃, hread, hvalid, hcount, hlatch, hidle⟩ :=
    DeviceRun.readEnds (cfg := s.cfg) (k := k) hcap₂ hfull (hphase₂.trans hphase₁) hdec e
  obtain ⟨t, hrun, hd', hrest⟩ :=
    (hrun₁.append (hrun₂.append hrun₃)).core_run (rest := rest) rfl hd (by simpa using hs)
  refine ⟨t, d₃, by simpa [hlen] using hrun, hd', ?_, hread, hvalid, hcount, hlatch, hidle, hrest⟩
  rw [hresp₃, hresp₂, hresp₁]

end Sys2Proof.Proofs

/-! SUPPORT. Proofs of the claims about the sequence controller (41_controller.md): what the port refuses, what each
command and each engine step answers, and how an attempt begins and ends. -/

namespace Sys2Proof.Machine

open Sys2Proof.Claims

/-! ### What the port refuses and accepts -/

section Port

variable {s : State} {d d' : Device} {f g : Device → Except Fault Device}

theorem onDevice_ne_refused (hd : s.dev? = some d) (r : Refusal) : onDevice s f ≠ .refused r := by
  rw [onDevice_eq_of_dev hd]
  cases f d <;> exact nofun

theorem accept_refused_iff {r : Refusal} (hd : s.dev? = some d) :
    accept s f = .refused r ↔ r = .commandWhileBusy ∧ d.blk.phase ≠ .idle := by
  by_cases hp : d.blk.phase = .idle
  · rw [accept_of_idle hd hp]
    exact iff_of_false (onDevice_ne_refused hd r) fun h => h.2 hp
  · rw [accept_of_busy hd hp, Host.Outcome.refused.injEq, and_iff_left hp, eq_comm]

/-- The one refusal of an operation on an instance that is there (R79). -/
theorem exec_refused_iff {i : Instr} {r : Refusal} (hd : s.dev? = some d) :
    exec i s = .refused r ↔
      r = .commandWhileBusy ∧ d.blk.phase ≠ .idle ∧ ∀ lvl ts, i ≠ .edge lvl ts := by
  cases i with
  | edge lvl ts => exact iff_of_false (onDevice_ne_refused hd r) fun h => h.2.2 lvl ts rfl
  | _ => exact (accept_refused_iff hd).trans (by simp)

theorem accept_of_ok (hd : s.dev? = some d) (hp : d.blk.phase = .idle) (hf : f d = .ok d') :
    accept s f = .next (s.putDev d') :=
  accept_next_iff.mpr ⟨d, d', hd, hp, hf, rfl⟩

/-- What a command answers depends on what it does with the selected instance alone. -/
theorem accept_congr (hd : s.dev? = some d) (h : f d = g d) : accept s f = accept s g := by
  simp only [accept, onDevice, hd, h]

end Port

/-! ### The commands at IDLE -/

section Commands

variable {s : State} {d : Device}

theorem execStartRead_of_idle (hd : s.dev? = some d) (hp : d.blk.phase = .idle) :
    execStartRead s = .next (s.putDev (startBegin s.cfg .startRead d)) := accept_of_ok hd hp rfl

theorem execRead_of_idle (hd : s.dev? = some d) (hp : d.blk.phase = .idle) :
    execRead s = .next (s.putDev (startBegin s.cfg .read d)) := accept_of_ok hd hp rfl

theorem execAbortRead_of_idle (hd : s.dev? = some d) (hp : d.blk.phase = .idle) :
    execAbortRead s = .next (s.putDev ((d.mapBlk Block.abort).respond .ok)) := accept_of_ok hd hp rfl

theorem execCheckStatus_of_ok {st : Status} (hd : s.dev? = some d) (hp : d.blk.phase = .idle)
    (hs : statusFn s.cfg d.blk (d.now s.cfg) = .ok st) :
    execCheckStatus s = .next (s.putDev (d.respond st)) :=
  accept_of_ok hd hp (by simp only [hs])

theorem getDataBody_of_error {cfg : Params} {k : Nat} {e : Fault}
    (hs : statusFn cfg d.blk (d.now cfg) = .error e) : getDataBody cfg k d = .error e := by
  simp only [getDataBody, hs]

/-- On an incomplete timeline GET_DATA is CHECK_STATUS (R91, R102). -/
theorem execGetData_of_not_full (hd : s.dev? = some d) (hc : d.blk.count ≠ .val 84) :
    execGetData s = execCheckStatus s := by
  refine accept_congr hd ?_
  cases hs : statusFn s.cfg d.blk (d.now s.cfg) with
  | ok st => simp only [getDataBody_of_not_full hc hs]
  | error e => simp only [getDataBody_of_error hs]

end Commands

/-! ### The status function, case by case -/

section Status

variable {cfg : Params} {b : Block} {c : Fin 85} {n : Nat}

theorem statusFn_of_sentinel (hc : b.count = .sentinel) : statusFn cfg b n = .ok .noData := by
  simp only [statusFn, hc]

theorem statusRef_zero (b : Block) : statusRef b 0 = .ok b.armTs := rfl

theorem statusRef_of_get? {e : Edge} (hpos : 1 ≤ c.val) (hlt : c.val < 84)
    (he : b.tl.get? (c.val - 1) = some e) : statusRef b c = .ok e.ts := by
  rw [statusRef, if_neg (by omega), tlRead_of_get? (show c.val - 1 < 84 by omega) he]

theorem statusFn_of_ref {ref : Nat} (hc : b.count = .val c) (hlt : c.val < 84)
    (href : statusRef b c = .ok ref) :
    statusFn cfg b n = .ok (if edgeExpired cfg n ref then .errTimeout else .busy) := by
  simp only [statusFn, hc, href, Config.capacity_eq, if_neg (Nat.ne_of_lt hlt)]

/-- A sequence in progress answers ErrTimeout or Busy by the time that has passed (R84, R85). -/
theorem execCheckStatus_of_ref {s : State} {d : Device} {ref : Nat} (hd : s.dev? = some d)
    (hp : d.blk.phase = .idle) (hc : d.blk.count = .val c) (hlt : c.val < 84)
    (href : statusRef d.blk c = .ok ref) :
    (s.cfg.edgeTimeoutUs < subW s.cfg.tsWidth (d.now s.cfg) ref →
      execCheckStatus s = .next (s.putDev (d.respond .errTimeout))) ∧
    (subW s.cfg.tsWidth (d.now s.cfg) ref ≤ s.cfg.edgeTimeoutUs →
      execCheckStatus s = .next (s.putDev (d.respond .busy))) := by
  have hanswer := execCheckStatus_of_ok hd hp (statusFn_of_ref hc hlt href)
  constructor
  · intro hlate
    rwa [if_pos (edgeExpired_iff.mpr hlate)] at hanswer
  · intro hearly
    rwa [if_neg (by rw [edgeExpired_eq_false_iff.mpr hearly]; exact nofun)] at hanswer

end Status

/-! ### The engine steps -/

section Engine

variable {cfg : Params} {k : Nat} {d : Device}

theorem pollActs_of_zero {b : Block} (h : b.count = .val 0) (n : Nat) :
    pollActs cfg b n = ackExpired cfg n b.armTs := by
  simp [pollActs, h]

/-- An acknowledge that has been seen ends START_READ (R83). -/
theorem ackPollEffect_of_startRead (h : d.blk.count ≠ .val 0) (hcur : d.blk.cur = .startRead) :
    ackPollEffect d = d.finish .ok := by
  rw [ackPollEffect, if_neg h, hcur]

theorem actsTo_releaseHeld (hp : d.blk.phase ≠ .startLow) : ActsTo cfg k .release d d := by
  rintro s - - hd
  have hheld : releaseEnabled d.blk = false := decide_eq_false hp
  simp [actionStep, startRelease, onDevice_eq_of_dev hd, hheld]

theorem actsTo_pollHeld (h : d.blk.phase = .awaitAck → pollActs cfg d.blk (d.now cfg) = false) :
    ActsTo cfg k .poll d d := by
  rintro s rfl - hd
  simp only [actionStep, ackPoll, onDevice_eq_of_dev hd]
  cases hp : d.blk.phase with
  | awaitAck => simp [h hp]
  | _ => rfl

theorem actsTo_wakeHeld (h : wakeEnabled d.blk = false) : ActsTo cfg k .wake d d := by
  rintro s - - hd
  simp [actionStep, waitDone, onDevice_eq_of_dev hd, h]

/-- While READ waits for its completion latch no engine step does anything (R126). -/
theorem actsTo_waiting (hp : d.blk.phase = .waitComplete) (hl : d.blk.completePending = false)
    {a : Action} (ha : a = .release ∨ a = .poll ∨ a = .wake) : ActsTo cfg k a d d := by
  rcases ha with rfl | rfl | rfl
  · exact actsTo_releaseHeld (by simp [hp])
  · exact actsTo_pollHeld fun hwait => absurd (hp.symm.trans hwait) nofun
  · exact actsTo_wakeHeld (by simp [wakeEnabled, hl])

/-- A machine whose next draw is that action takes the step, at that instance. -/
theorem ActsTo.core_step {a : Action} {dt : Nat} {d' : Device} (h : ActsTo cfg k a (d.advance dt) d')
    {s : State} {rest : List Event} (hcfg : s.cfg = cfg) (hd : s.devices[k]? = some d)
    (hs : s.script = ⟨k, dt, a⟩ :: rest) :
    ∃ t, core.step s = .next t ∧ t.devices[k]? = some d' ∧ t.script = rest := by
  have hdev : (s.begin ⟨k, dt, a⟩ rest).dev? = some (d.advance dt) := by
    rw [State.begin_dev?, hd]; rfl
  exact ⟨_, (step_cons hs).trans (h _ hcfg rfl hdev), State.dev?_putDev hdev, rfl⟩

/-- A run of one step more takes that step first. -/
theorem core_run_succ {s t : State} (n : Nat) (h : core.step s = .next t) :
    core.run (n + 1) s = core.run n t := by
  simp only [Host.Core.run, h]

/-- With no draw to come a step changes nothing (R123). -/
theorem step_of_script_nil {s : State} (hs : s.script = []) : core.step s = .next s := by
  show takeStep s = .next s
  rw [takeStep, hs]

end Engine

/-! ### How an attempt begins and ends -/

section Attempt

variable {cfg : Params} {k : Nat} {d : Device}

/-- START_READ, presented at IDLE (R80, R81). -/
theorem actsTo_startRead (hp : d.blk.phase = .idle) :
    ActsTo cfg k (.port (.cmd 1)) d (startBegin cfg .startRead d) := by
  rintro s rfl - hd
  have hdec : decode s.cfg.tsWidth (.cmd 1) = .ok .startRead := rfl
  exact (portStep_of_ok hdec).trans (execStartRead_of_idle hd hp)

/-- Either of the two commands that begin an attempt (R81, R87). -/
theorem actsTo_start {op : Nat} (hop : op = 1 ∨ op = 5) (hp : d.blk.phase = .idle) :
    ∃ cur, ActsTo cfg k (.port (.cmd op)) d (startBegin cfg cur d) := by
  rcases hop with rfl | rfl
  · exact ⟨.startRead, actsTo_startRead hp⟩
  · exact ⟨.read, actsTo_read hp⟩

/-- START_READ from IDLE to its OK response (R80 to R83): the acknowledge is appended at slot 0. -/
theorem DeviceRun.startReadAcknowledged (hp : d.blk.phase = .idle) {x : Nat × Edge}
    (hlow : x.2.lvl = .low) (hts : x.2.ts < 2 ^ cfg.tsWidth) (a b c : Nat) :
    ∃ d', DeviceRun cfg k d
        [{ dev := k, dt := a, act := .port (.cmd 1) }, { dev := k, dt := b, act := .release },
          edgeEvent cfg k x, { dev := k, dt := c, act := .poll }] d' ∧
      d'.responses = d.responses ++ [.ok] ∧ d'.blk.phase = .idle ∧ d'.blk.count = .val 1 ∧
      d'.blk.tl.get? 0 = some x.2 ∧ d'.blk.armed = true ∧ d'.blk.lineDir = .input := by
  have hroom : (0 : Fin 85).val < Config.capacity := by decide
  let d₁ := startBegin cfg .startRead (d.advance a)
  let d₂ := releaseLine cfg (d₁.advance b)
  let d₃ : Device := { d₂.advance x.1 with blk := d₂.blk.appended x.2 0 hroom }
  have hrec : recordEdge x.2 d₂.blk = .ok d₃.blk := recordEdge_of_append rfl rfl hroom fun _ => hlow
  have hseen : d₃.blk.count ≠ .val 0 := by simp [d₃, Block.appended]
  have hpoll : ackPollEffect (d₃.advance c) = (d₃.advance c).finish .ok :=
    ackPollEffect_of_startRead hseen rfl
  refine ⟨ackPollEffect (d₃.advance c), ?_, ?_⟩
  · exact .cons (actsTo_startRead hp) <| .cons (actsTo_release rfl) <| .cons (actsTo_edge hts hrec) <|
      .cons (actsTo_poll rfl (pollActs_of_seen hseen _)) (.nil _)
  · rw [hpoll]
    exact ⟨rfl, rfl, rfl, Memory.get?_set_same .., rfl, rfl⟩

/-- Modular subtraction sees its operands modulo `2^W` (R19). -/
theorem subW_mod_mod (width a b : Nat) : subW width (a % 2 ^ width) (b % 2 ^ width) = subW width a b := by
  simp [subW]

/-- The time ACK_POLL measures since the release, in which only the clock has moved on (R82, R83). -/
theorem releaseLine_elapsed (cfg : Params) (d : Device) (dt : Nat) :
    subW cfg.tsWidth (((releaseLine cfg d).advance dt).now cfg) (releaseLine cfg d).blk.armTs =
      dt % 2 ^ cfg.tsWidth :=
  (subW_mod_mod ..).trans (subW_add ..)

/-- START_READ or READ from IDLE to the acknowledge timeout (R80, R83, R87). -/
theorem DeviceRun.startTimesOut (hp : d.blk.phase = .idle) {op : Nat} (hop : op = 1 ∨ op = 5) {c : Nat}
    (hlate : cfg.ackTimeoutUs < c) (hc : c < 2 ^ cfg.tsWidth) (a b : Nat) :
    ∃ d', DeviceRun cfg k d
        [{ dev := k, dt := a, act := .port (.cmd op) }, { dev := k, dt := b, act := .release },
          { dev := k, dt := c, act := .poll }] d' ∧
      d'.responses = d.responses ++ [.errTimeout] ∧ d'.blk.phase = .idle ∧
      d'.blk.count = .sentinel ∧ d'.blk.armed = false ∧ d'.blk.tl = d.blk.tl := by
  obtain ⟨cur, hstart⟩ := actsTo_start (cfg := cfg) (k := k) (d := d.advance a) hop hp
  let d₁ := startBegin cfg cur (d.advance a)
  let d₂ := releaseLine cfg (d₁.advance b)
  have helapsed : subW cfg.tsWidth ((d₂.advance c).now cfg) d₂.blk.armTs = c :=
    (releaseLine_elapsed cfg _ c).trans (Nat.mod_eq_of_lt hc)
  have hacts : pollActs cfg (d₂.advance c).blk ((d₂.advance c).now cfg) = true :=
    (pollActs_of_zero rfl _).trans (ackExpired_iff.mpr (hlate.trans_eq helapsed.symm))
  refine ⟨ackPollEffect (d₂.advance c), ?_, ?_⟩
  · exact .cons hstart <| .cons (actsTo_release rfl) <| .cons (actsTo_poll rfl hacts) (.nil _)
  · rw [ackPollEffect_of_zero rfl]
    exact ⟨rfl, rfl, rfl, rfl, rfl⟩

end Attempt

/-! ### The sequencer state -/

/-- Everything a transition can do to the sequencer state (R33, R81 to R83, R88). -/
theorem Trans.phase_cases {cfg : Params} {k : Nat} {d d' : Device} {c : Cause} (h : Trans cfg k d c d') :
    d'.blk.phase = d.blk.phase ∨
    (d.blk.phase = .idle ∧ d'.blk.phase = .startLow ∧ (c = .instr .startRead ∨ c = .instr .read)) ∨
    (d.blk.phase = .startLow ∧ d'.blk.phase = .awaitAck ∧ c = .release) ∨
    (d.blk.phase = .awaitAck ∧ (d'.blk.phase = .waitComplete ∨ d'.blk.phase = .idle) ∧ c = .poll) ∨
    (d.blk.phase = .waitComplete ∧ d'.blk.phase = .idle ∧ c = .wake) := by
  cases h with
  | startRead hp => exact .inr (.inl ⟨hp, rfl, .inl rfl⟩)
  | read hp => exact .inr (.inl ⟨hp, rfl, .inr rfl⟩)
  | getData _ hb => exact .inl (getDataBody_phase hb :)
  | release hp => exact .inr (.inr (.inl ⟨hp, rfl, rfl⟩))
  | poll hp =>
    by_cases hz : d.blk.count = .val 0
    · rw [ackPollEffect_of_zero hz]
      exact .inr (.inr (.inr (.inl ⟨hp, .inr rfl, rfl⟩)))
    · rcases ackPollEffect_of_seen hz with ⟨-, heq⟩ | ⟨-, heq⟩ | ⟨-, heq⟩ <;> rw [heq]
      · exact .inr (.inr (.inr (.inl ⟨hp, .inl rfl, rfl⟩)))
      · exact .inr (.inr (.inr (.inl ⟨hp, .inr rfl, rfl⟩)))
      · exact .inl rfl
  | wake hp => exact .inr (.inr (.inr (.inr ⟨hp, rfl, rfl⟩)))
  | _ => exact .inl rfl

end Sys2Proof.Machine

namespace Sys2Proof.Proofs

open Sys2Proof.Machine Sys2Proof.Claims

/-- Settles O9: the port refuses a command while busy, and nothing else refuses. -/
theorem portAcceptsAtIdle : Obligations.PortAcceptsAtIdle := by
  intro s d i hd
  constructor
  · rw [exec_refused_iff hd, and_iff_right rfl]
  · intro r hr
    exact ((exec_refused_iff hd).mp hr).1

/-- Settles O10: at IDLE the port accepts START_READ, whose first step is START_BEGIN. -/
theorem startReadBegins : Obligations.StartReadBegins :=
  fun _ _ hd hp => execStartRead_of_idle hd hp

/-- Settles O11: READ is accepted as START_READ is, with the same first step. -/
theorem readBegins : Obligations.ReadBegins :=
  fun _ _ hd hp => execRead_of_idle hd hp

/-- Settles O12: in START_LOW the release is enabled. -/
theorem startReleaseReleases : Obligations.StartReleaseReleases :=
  fun s _ hd hp => actsTo_release (cfg := s.cfg) (k := s.sel) hp s rfl rfl hd

/-- Settles O13: ACK_POLL acts when `count` is not 0 or the timeout has elapsed, and else holds. -/
theorem ackPollOutcomes : Obligations.AckPollOutcomes := by
  intro s d hd hp
  have hacts (ha : pollActs s.cfg d.blk (d.now s.cfg) = true) :
      ackPoll s = .next (s.putDev (ackPollEffect d)) :=
    actsTo_poll (k := s.sel) hp ha s rfl rfl hd
  refine ⟨fun hc hcur => ?_, fun hc hcur => ?_, fun hc hlate => ?_, fun hc hearly => ?_⟩
  · rw [hacts (pollActs_of_seen hc _), ackPollEffect_of_startRead hc hcur]
    rfl
  · rw [hacts (pollActs_of_seen hc _), ackPollEffect_of_read hc hcur, ← hcur]
    rfl
  · rw [hacts ((pollActs_of_zero hc _).trans (ackExpired_iff.mpr hlate)), ackPollEffect_of_zero hc]
    rfl
  · have hheld := (pollActs_of_zero hc _).trans (ackExpired_eq_false_iff.mpr hearly)
    have hsame : ackPoll s = .next (s.putDev d) :=
      actsTo_pollHeld (k := s.sel) (fun _ => hheld) s rfl rfl hd
    rw [hsame, State.putDev_self hd]

/-- Settles O14: the status function at SENTINEL, at 84, at 0 and with an edge to measure from. -/
theorem checkStatusAnswers : Obligations.CheckStatusAnswers := by
  intro s d hd hp
  refine ⟨fun hc => ?_, fun hc => ?_, fun hc => ?_, fun c e hc hpos hlt he => ?_⟩
  · exact execCheckStatus_of_ok hd hp (statusFn_of_sentinel hc)
  · exact execCheckStatus_of_ok hd hp (statusFn_full hc)
  · exact execCheckStatus_of_ref hd hp hc (by decide) (statusRef_zero d.blk)
  · exact execCheckStatus_of_ref hd hp hc hlt (statusRef_of_get? hpos hlt he)

/-- Settles O16: at IDLE the abort is accepted, and responds. -/
theorem abortReadResult : Obligations.AbortReadResult :=
  fun _ _ hd hp => execAbortRead_of_idle hd hp

/-- Settles O18: GET_DATA's body gives the status function's answer, fault or status. -/
theorem getDataNotReady : Obligations.GetDataNotReady :=
  fun _ _ hd hc => execGetData_of_not_full hd hc

/-- Settles O17: the abort leaves `count` SENTINEL at IDLE, where the status function answers NoData, GET_DATA
does what CHECK_STATUS does, and an abort finds nothing to change. -/
theorem abortLeavesNoData : Obligations.AbortLeavesNoData := by
  intro s d hd hp
  let d' := (d.mapBlk Block.abort).respond .ok
  have hd' : (s.putDev d').dev? = some d' := State.dev?_putDev hd
  have hresp (st : Status) : { d' with responses := d.responses ++ [.ok, st] } = d'.respond st := by
    rw [← List.singleton_append, ← List.append_assoc]
    rfl
  have hcheck : execCheckStatus (s.putDev d') = .next ((s.putDev d').putDev (d'.respond .noData)) :=
    execCheckStatus_of_ok hd' hp (statusFn_of_sentinel rfl)
  refine ⟨s.putDev d', d', execAbortRead_of_idle hd hp, hd', ?_, ?_, ?_⟩ <;> rw [hresp]
  · exact hcheck
  · exact (execGetData_of_not_full hd' nofun).trans hcheck
  · exact execAbortRead_of_idle hd' hp

/-- Settles O22: the latch is consumed, and GET_DATA's body finds the timeline complete. -/
theorem waitDoneEndsRead : Obligations.WaitDoneEndsRead := by
  intro s d hd hp hl hc
  have hwake {res : Decoded Reading} (hdec : decodeFn s.cfg d.blk.tl = .ok res) :
      waitDone s = .next (s.putDev ((storeDecoded s.sel (d.mapBlk Block.consume) res).2.finish
        (storeDecoded s.sel (d.mapBlk Block.consume) res).1)) :=
    actsTo_wake hp hl (getDataBody_full hc hdec) s rfl rfl hd
  exact ⟨fun r hdec => hwake hdec, fun st hdec => ⟨_, _, hwake hdec⟩⟩

/-- Settles O23, by induction on the number of steps: each draw left is one that does nothing. -/
theorem readCanWaitForEver : Obligations.ReadCanWaitForEver := by
  intro n
  induction n with
  | zero => exact fun s k d hd _ _ _ => ⟨s, d, rfl, hd, rfl, rfl⟩
  | succ n ih =>
    intro s k d hd hp hl hevs
    cases hs : s.script with
    | nil =>
      rw [core_run_succ n (step_of_script_nil hs)]
      exact ih s k d hd hp hl hevs
    | cons ev rest =>
      rw [hs] at hevs
      obtain ⟨rfl, hact⟩ := hevs ev List.mem_cons_self
      have hwaits : ActsTo s.cfg ev.dev ev.act (d.advance ev.dt) (d.advance ev.dt) :=
        actsTo_waiting (d := d.advance ev.dt) hp hl hact
      obtain ⟨t, hstep, hd', hrest⟩ := hwaits.core_step rfl hd hs
      rw [core_run_succ n hstep]
      refine ih t ev.dev (d.advance ev.dt) hd' hp hl fun e he => ?_
      exact hevs e (List.mem_cons_of_mem ev (hrest ▸ he))

/-- Settles O24, as a run of the instance: START_READ, RELEASE, the acknowledge's edge and POLL. -/
theorem startReadAcknowledged : Obligations.StartReadAcknowledged := by
  intro s k d x a b c rest hd hp hlow hts hs
  obtain ⟨d', hrun, hresp, hidle, hcount, hslot, harmed, hline⟩ :=
    DeviceRun.startReadAcknowledged (cfg := s.cfg) (k := k) hp hlow hts a b c
  obtain ⟨t, hcore, hd', hrest⟩ := hrun.core_run rfl hd hs
  exact ⟨t, d', hcore, hd', hresp, hidle, hcount, hslot, harmed, hline, hrest⟩

/-- Settles O25, as a run of the instance: the clock's advance since the release is the time POLL measures. -/
theorem startReadTimesOut : Obligations.StartReadTimesOut := by
  intro s k d op a b c rest hd hp hop hlate hc hs
  obtain ⟨d', hrun, hends⟩ :=
    DeviceRun.startTimesOut (cfg := s.cfg) (k := k) hp hop hlate hc a b
  obtain ⟨t, hcore, hd', -⟩ := hrun.core_run rfl hd hs
  exact ⟨t, d', hcore, hd', hends⟩

/-- Settles O50, from everything a step can do to the sequencer state. -/
theorem onlyStartsLeaveIdle : Obligations.OnlyStartsLeaveIdle := by
  intro s t ev d d' h
  obtain ⟨c, hc, ht⟩ := stepsTo_trans h
  have hcases := ht.phase_cases
  rw [Device.advance_blk] at hcases
  constructor
  · intro hne hlow
    rcases hcases with heq | ⟨hidle, -, hstart⟩ | ⟨hstart, -⟩ | ⟨-, hend | hend, -⟩ | ⟨-, hend, -⟩
    · exact absurd (heq.symm.trans hlow) hne
    · exact ⟨hidle, hstart.imp (runs_of_cause hc) (runs_of_cause hc)⟩
    · exact absurd hstart hne
    all_goals exact absurd (hend.symm.trans hlow) nofun
  · intro hidle hne
    rcases hcases with heq | ⟨-, hlow, -⟩ | ⟨hbusy, -⟩ | ⟨hbusy, -⟩ | ⟨hbusy, -⟩
    · exact absurd (heq.trans hidle) hne
    · exact hlow
    all_goals exact absurd (hidle.symm.trans hbusy) nofun

/-- Settles O56, from the invariant after the step: `count = 0` only while the acknowledge is awaited. -/
theorem idleNeverAtZero : Obligations.IdleNeverAtZero := by
  intro s t ev d d' hinv h hidle hz
  obtain ⟨hstep, -, -, hd'⟩ := h
  have hwait := ((stepKeepsInv s t hinv hstep).dev hd').zero_await hz
  exact absurd (hidle.symm.trans hwait) nofun

end Sys2Proof.Proofs

/-! SUPPORT. Proofs of the claims about the frame decoder (42_decoder.md): when a byte and a frame decode, and what
GET_DATA makes of a complete timeline. -/

namespace Sys2Proof.Machine

open Sys2Proof.Claims

/-! ### A byte whose slots are written -/

section Byte

variable {cfg : Params} {m : Memory} {E : Nat → Edge} {off i : Nat}

/-- A bit that does not decode fails with some status (R95, R97). -/
theorem decodeBit_of_not_bitOk (h : ¬ BitOk cfg E off i) :
    ∃ st, decodeBit cfg (E (off + 2 * i)) (E (off + 2 * i + 1)) (E (off + 2 * i + 2)) = .fail st := by
  by_cases hlvl : LevelsOk E off i
  · have hlong : cfg.bit1MaxUs < duration cfg.tsWidth E off i := Nat.lt_of_not_le fun hdur => h ⟨hlvl, hdur⟩
    exact ⟨_, decodeBit_of_tooLong hlvl hlong⟩
  · exact ⟨_, decodeBit_of_not_levelsOk hlvl⟩

/-- One bad bit of the eight fails the byte: the first of them decides (R98). -/
theorem decodeByte_of_not_bitsOk (hoff : off ≤ 67) (hE : Holds m E off (off + 16))
    (hbad : ∃ i, i < 8 ∧ ¬ BitOk cfg E off i) : ∃ st, decodeByte cfg m off = .ok (.fail st) := by
  classical
  obtain ⟨hi, hfirst⟩ := Nat.find_spec hbad
  have hbefore : ∀ j, j < Nat.find hbad → BitOk cfg E off j := fun j hj =>
    not_not.mp fun hj' => Nat.find_min hbad hj ⟨hj.trans hi, hj'⟩
  obtain ⟨st, hfail⟩ := decodeBit_of_not_bitOk hfirst
  exact ⟨st, decodeByte_of_first_fail hoff hE hi hbefore hfail⟩

/-- A written byte decodes or fails with a status; it does not fault (R40, R98). -/
theorem decodeByte_of_holds (hoff : off ≤ 67) (hE : Holds m E off (off + 16)) :
    ((∀ i, i < 8 → BitOk cfg E off i) ∧ ∃ v, decodeByte cfg m off = .ok (.ok v)) ∨
    ∃ st, decodeByte cfg m off = .ok (.fail st) := by
  by_cases hok : ∀ i, i < 8 → BitOk cfg E off i
  · exact .inl ⟨hok, _, decodeByte_of_bitsOk hoff hE (Nat.zero_add 8) hok⟩
  · exact .inr (decodeByte_of_not_bitsOk hoff hE (by push Not at hok; exact hok))

/-- A written byte decodes exactly when its eight bits do, and then to the byte they spell (R98). -/
theorem decodeByte_ok_iff {v w : Byte} (hoff : off ≤ 67) (hE : Holds m E off (off + 16))
    (hv : IsByteAt cfg E off v) :
    decodeByte cfg m off = .ok (.ok w) ↔ (∀ i, i < 8 → BitOk cfg E off i) ∧ w = v := by
  constructor
  · intro hw
    rcases decodeByte_of_holds hoff hE with ⟨hok, -⟩ | ⟨st, hfail⟩
    · have hsame := hw.symm.trans (decodeByte_of_isByteAt hoff hE hok hv)
      cases hsame
      exact ⟨hok, rfl⟩
    · cases hw.symm.trans hfail
  · rintro ⟨hok, rfl⟩
    exact decodeByte_of_isByteAt hoff hE hok hv

end Byte

/-! ### The frame from its three bytes -/

section Frame

variable {cfg : Params} {m : Memory} {hi ti c : Byte} {st : Status}

theorem decodeFn_of_humInt_fail (h : decodeByte cfg m 2 = .ok (.fail st)) :
    decodeFn cfg m = .ok (.fail st) := by
  simp only [decodeFn, show Config.offHumInt = 2 from rfl, h]

theorem decodeFn_of_tmpInt_fail (hhi : decodeByte cfg m 2 = .ok (.ok hi))
    (h : decodeByte cfg m 34 = .ok (.fail st)) : decodeFn cfg m = .ok (.fail st) := by
  simp only [decodeFn, show Config.offHumInt = 2 from rfl, show Config.offTmpInt = 34 from rfl, hhi, h]

theorem decodeFn_of_crc_fail (hhi : decodeByte cfg m 2 = .ok (.ok hi))
    (hti : decodeByte cfg m 34 = .ok (.ok ti)) (h : decodeByte cfg m 66 = .ok (.fail st)) :
    decodeFn cfg m = .ok (.fail st) := by
  simp only [decodeFn, show Config.offHumInt = 2 from rfl, show Config.offTmpInt = 34 from rfl,
    show Config.offCrc = 66 from rfl, hhi, hti, h]

/-- The checksum (R99), the decimal bytes being 0, as arithmetic modulo 256. -/
theorem eq_checksum_iff : c = checksum hi 0 ti 0 ↔ c.toNat = (hi.toNat + ti.toNat) % 256 := by
  rw [show checksum hi 0 ti 0 = hi + ti by simp [checksum], ← BitVec.toNat_inj, BitVec.toNat_add]

theorem validate_of_sum (h : c.toNat = (hi.toNat + ti.toNat) % 256) :
    validate hi ti c = .ok { humInt := hi, humDec := 0, tmpInt := ti, tmpDec := 0, crc := c } :=
  if_pos (eq_checksum_iff.mpr h)

theorem validate_of_not_sum (h : c.toNat ≠ (hi.toNat + ti.toNat) % 256) :
    validate hi ti c = .fail .errCrc :=
  if_neg (eq_checksum_iff.not.mpr h)

/-- The slots of the three integral bytes lie among 2 to 82 (R93, R94). -/
theorem holds_bytes {E : Nat → Edge} (hE : Holds m E 2 82) :
    Holds m E 2 18 ∧ Holds m E 34 50 ∧ Holds m E 66 82 :=
  ⟨holds_mono hE (by decide) (by decide), holds_mono hE (by decide) (by decide),
    holds_mono hE (by decide) (by decide)⟩

/-- With slots 2 to 82 written the frame decodes, to a reading or to a failure (R92, R101). -/
theorem decodeFn_of_holds {E : Nat → Edge} (hE : Holds m E 2 82) : ∃ res, decodeFn cfg m = .ok res := by
  obtain ⟨hEhum, hEtmp, hEcrc⟩ := holds_bytes hE
  rcases decodeByte_of_holds (by decide) hEhum with ⟨-, hi, hhi⟩ | ⟨st, hfail⟩
  · rcases decodeByte_of_holds (by decide) hEtmp with ⟨-, ti, hti⟩ | ⟨st, hfail⟩
    · rcases decodeByte_of_holds (by decide) hEcrc with ⟨-, c, hc⟩ | ⟨st, hfail⟩
      · exact ⟨_, decodeFn_of_bytes hhi hti hc⟩
      · exact ⟨_, decodeFn_of_crc_fail hhi hti hfail⟩
    · exact ⟨_, decodeFn_of_tmpInt_fail hhi hfail⟩
  · exact ⟨_, decodeFn_of_humInt_fail hfail⟩

end Frame

/-! ### GET_DATA on a complete timeline -/

/-- At IDLE GET_DATA stores the decode of a complete timeline and responds with its status (R91, R102). -/
theorem execGetData_of_full {s : State} {d : Device} {res : Decoded Reading} (hd : s.dev? = some d)
    (hp : d.blk.phase = .idle) (hc : d.blk.count = .val 84) (hdec : decodeFn s.cfg d.blk.tl = .ok res) :
    execGetData s = .next (s.putDev
      ((storeDecoded s.sel d res).2.respond (storeDecoded s.sel d res).1)) :=
  execGetData_next_iff.mpr ⟨_, _, _, hd, hp, getDataBody_full hc hdec, rfl⟩

end Sys2Proof.Machine

namespace Sys2Proof.Proofs

open Sys2Proof.Machine Sys2Proof.Claims

/-- Settles O35: each byte that decodes leaves the frame to the next one, and the last to the checksum. -/
theorem frameStatus : Obligations.FrameStatus := by
  intro cfg m
  refine ⟨fun st h => decodeFn_of_humInt_fail h, fun hi st hhi h => decodeFn_of_tmpInt_fail hhi h,
    fun hi ti st hhi hti h => decodeFn_of_crc_fail hhi hti h, fun hi ti c hhi hti hc => ?_⟩
  rw [decodeFn_of_bytes hhi hti hc]
  exact ⟨fun hsum => congrArg Except.ok (validate_of_sum hsum),
    fun hne => congrArg Except.ok (validate_of_not_sum hne)⟩

/-- Settles O36: an OK frame is three OK bytes that the validator accepts, and a byte is OK exactly when its
bits are. -/
theorem decodeOkExactly : Obligations.DecodeOkExactly := by
  intro cfg m E hE hi ti c hhi hti hc
  obtain ⟨hEhum, hEtmp, hEcrc⟩ := holds_bytes hE
  have hhum {v : Byte} := decodeByte_ok_iff (w := v) (by decide) hEhum hhi
  have htmp {v : Byte} := decodeByte_ok_iff (w := v) (by decide) hEtmp hti
  have hcrc {v : Byte} := decodeByte_ok_iff (w := v) (by decide) hEcrc hc
  have hok : ∀ r, decodeFn cfg m = .ok (.ok r) →
      ((∀ i, i < 8 → BitOk cfg E 2 i ∧ BitOk cfg E 34 i ∧ BitOk cfg E 66 i) ∧
        c.toNat = (hi.toNat + ti.toNat) % 256) ∧
      r = { humInt := hi, humDec := 0, tmpInt := ti, tmpDec := 0, crc := c } := by
    intro r hr
    obtain ⟨_, _, _, h₁, h₂, h₃, hvalid⟩ := decodeFn_ok hr
    obtain ⟨hbits₁, rfl⟩ := hhum.mp h₁
    obtain ⟨hbits₂, rfl⟩ := htmp.mp h₂
    obtain ⟨hbits₃, rfl⟩ := hcrc.mp h₃
    obtain ⟨hreading, hsum⟩ := validate_ok hvalid
    exact ⟨⟨fun i h => ⟨hbits₁ i h, hbits₂ i h, hbits₃ i h⟩, by rw [hsum, BitVec.toNat_add]⟩, hreading⟩
  refine ⟨⟨fun ⟨r, hr⟩ => (hok r hr).1, fun ⟨hbits, hsum⟩ => ?_⟩, fun r hr => (hok r hr).2⟩
  have hframe : decodeFn cfg m = .ok (validate hi ti c) :=
    decodeFn_of_bytes (hhum.mpr ⟨fun i h => (hbits i h).1, rfl⟩)
      (htmp.mpr ⟨fun i h => (hbits i h).2.1, rfl⟩) (hcrc.mpr ⟨fun i h => (hbits i h).2.2, rfl⟩)
  exact ⟨_, hframe.trans (congrArg Except.ok (validate_of_sum hsum))⟩

/-- Settles O19: the decode is stored and its status is the response. -/
theorem getDataReportsDecode : Obligations.GetDataReportsDecode := by
  intro s d hd hp hc
  exact ⟨fun r hdec => execGetData_of_full hd hp hc hdec,
    fun st hdec => ⟨_, _, execGetData_of_full hd hp hc hdec⟩⟩

/-- Settles O20: the frame decodes to a reading or to a failure, and GET_DATA reports either. -/
theorem getDataCompletes : Obligations.GetDataCompletes := by
  intro s d E hd hp hc hE
  obtain ⟨hreading, hfailed⟩ := getDataReportsDecode s d hd hp hc
  obtain ⟨res, hdec⟩ := decodeFn_of_holds (cfg := s.cfg) hE
  cases res with
  | ok r => exact ⟨.ok, r, true, d.draws, hreading r hdec, by simp, by simp⟩
  | fail st =>
    obtain ⟨r, n, hexec⟩ := hfailed st hdec
    refine ⟨st, r, false, n, hexec, ?_, ?_⟩ <;>
      rcases decodeFn_fail hdec with rfl | rfl | rfl <;> decide

end Sys2Proof.Proofs

/-! SUPPORT. Proofs of the claims about exceptions and time (60_exceptions.md): what becomes of an instance's
clock. -/

namespace Sys2Proof.Machine

section Clock

variable {cfg : Params} {k : Nat} {d d' : Device}

/-- GET_DATA's body takes no time of its own (R91, R117). -/
theorem getDataBody_tau {st : Status} (h : getDataBody cfg k d = .ok (st, d')) : d'.tau = d.tau := by
  rcases getDataBody_ok_cases h with ⟨-, -, rfl⟩ | ⟨-, r, -, -, rfl⟩ | ⟨-, -, rfl⟩ <;> rfl

/-- ACK_POLL takes no time of its own (R83, R117). -/
theorem ackPollEffect_tau (d : Device) : (ackPollEffect d).tau = d.tau := by
  by_cases hz : d.blk.count = .val 0
  · rw [ackPollEffect_of_zero hz]; rfl
  · rcases ackPollEffect_of_seen hz with ⟨-, heq⟩ | ⟨-, heq⟩ | ⟨-, heq⟩ <;> rw [heq] <;> rfl

/-- No transition moves the clock: only the draw that begins the step has moved it on (R117). -/
theorem Trans.tau_eq {c : Cause} (h : Trans cfg k d c d') : d'.tau = d.tau := by
  cases h with
  | getData _ hb => exact (getDataBody_tau hb :)
  | wake _ _ hb => exact (getDataBody_tau hb :)
  | poll => exact ackPollEffect_tau d
  | _ => rfl

end Clock

end Sys2Proof.Machine

namespace Sys2Proof.Proofs

open Sys2Proof.Machine

/-- Settles O48: the draw moves the clock on, and the transition it stands for leaves it there. -/
theorem clockAdvances : Obligations.ClockAdvances := by
  intro s t ev d d' h
  obtain ⟨c, -, ht⟩ := stepsTo_trans h
  exact ht.tau_eq.trans (Device.advance_tau d ev.dt)

end Sys2Proof.Proofs

/-! SUPPORT. Proofs of the claims about reset and hazards (70_reset_and_hazards.md): what reset leaves in an
instance, and what the first command finds there. -/

namespace Sys2Proof.Machine

/-- CHECK_STATUS, presented at IDLE (R84, R85). -/
theorem actsTo_checkStatus {cfg : Params} {k : Nat} {d : Device} {st : Status} (hp : d.blk.phase = .idle)
    (hs : statusFn cfg d.blk (d.now cfg) = .ok st) : ActsTo cfg k (.port (.cmd 2)) d (d.respond st) := by
  rintro s rfl - hd
  have hdec : decode s.cfg.tsWidth (.cmd 2) = .ok .checkStatus := rfl
  exact (portStep_of_ok hdec).trans (execCheckStatus_of_ok hd hp hs)

/-- The whole state after a draw: the instance is replaced and selected, and the draw is consumed (R36, R56). -/
theorem ActsTo.step_eq {cfg : Params} {k : Nat} {d d' : Device} {a : Action} {dt : Nat}
    (h : ActsTo cfg k a (d.advance dt) d') {s : State} {rest : List Event} (hcfg : s.cfg = cfg)
    (hd : s.devices[k]? = some d) (hs : s.script = ⟨k, dt, a⟩ :: rest) :
    step s = .next { s with devices := s.devices.set k d', sel := k, script := rest } := by
  have hdev : (s.begin ⟨k, dt, a⟩ rest).dev? = some (d.advance dt) := by
    rw [State.begin_dev?, hd]; rfl
  have hset : (s.devices.modify k (Device.advance dt)).set k d' = s.devices.set k d' := by
    simp [List.modify_eq_set_getElem?, hd]
  calc step s = .next ((s.begin ⟨k, dt, a⟩ rest).putDev d') := (step_cons hs).trans (h _ hcfg rfl hdev)
    _ = .next { s with devices := s.devices.set k d', sel := k, script := rest } := by
      simp only [State.putDev, State.begin, hset]

/-- Each instance of the machine is the one of R123 (R120). -/
theorem State.resetWith_devices_getElem? {cfg : Params} {n k : Nat} (hk : k < n) :
    (State.resetWith cfg n).devices[k]? = some (Device.reset cfg k) := by
  simp [State.resetWith, hk]

end Sys2Proof.Machine

namespace Sys2Proof.Proofs

open Sys2Proof.Machine

/-- Settles O43: with the cursor at SENTINEL the status function answers NoData. -/
theorem resetState : Obligations.ResetState := by
  intro cfg n k hk
  have hd := State.resetWith_devices_getElem? (cfg := cfg) hk
  have hcheck (dt : Nat) : ActsTo cfg k (.port (.cmd 2)) ((Device.reset cfg k).advance dt)
      (((Device.reset cfg k).advance dt).respond .noData) :=
    actsTo_checkStatus rfl (statusFn_of_sentinel rfl)
  exact ⟨Device.reset cfg k, hd, fun _ => rfl, rfl, rfl, rfl, rfl, rfl, rfl, rfl, rfl,
    fun dt => (hcheck dt).step_eq rfl hd rfl⟩

end Sys2Proof.Proofs
